-- ==== Sys2Proof/Word.lean ====
section
/-! DEFINITION. The words EPD-Core handles: bytes, line levels, wire symbols, request descriptors. -/

namespace Sys2Proof

/-- A byte, bits 7 (most significant) to 0 (00_scope.md R7). -/
abbrev Byte := BitVec 8

/-- The level of a one-bit line (10_state.md R16). -/
abbrev Level := BitVec 1

/-- A wire symbol: bit 8 is the level of the select line while the byte of bits 7 to 0 is shifted
(30_encoding.md R60). -/
abbrev Symbol := BitVec 9

/-- A host request descriptor, `req_desc[63:0]` (30_encoding.md R77). -/
abbrev Descriptor := BitVec 64

/-- A 16-bit field of a descriptor: `x`, `y` or `len` (30_encoding.md R77). -/
abbrev Field16 := BitVec 16

/-- `x` is a two's complement number of that many bits. -/
def fitsSigned (bits : Nat) (x : Int) : Bool := decide (-(2 ^ bits) ≤ 2 * x) && decide (2 * x < 2 ^ bits)

end Sys2Proof
end

