-- ==== Sys2Proof/Config.lean ====
section
/-! DEFINITION. The parameters of EPD-Core (00_scope.md R5), the quantities derived from them, the bounds they
must meet (R6), and the free values: what the spec leaves to the environment or calls unspecified. -/

namespace Sys2Proof

/-- The thirteen panel commands EPD-Core emits, by function (30_encoding.md R66). -/
inductive PanelCommand where
  | swReset
  | driverOutputControl
  | dataEntryMode
  | setRamXWindow
  | setRamYWindow
  | borderWaveform
  | tempSensor
  | displayUpdateControl1
  | setRamXCounter
  | setRamYCounter
  | writeRamBw
  | displayUpdateControl2
  | masterActivation
  deriving DecidableEq, Repr

/-- The thirteen open command bytes `CMD_*` (30_encoding.md R66, 92_eei_decisions.md D3). -/
structure CommandBytes where
  swReset               : Byte
  driverOutputControl   : Byte
  dataEntryMode         : Byte
  setRamXWindow         : Byte
  setRamYWindow         : Byte
  borderWaveform        : Byte
  tempSensor            : Byte
  displayUpdateControl1 : Byte
  setRamXCounter        : Byte
  setRamYCounter        : Byte
  writeRamBw            : Byte
  displayUpdateControl2 : Byte
  masterActivation      : Byte
  deriving DecidableEq, Repr

/-- The order of bits on the link, below the level of the model (20_memory.md R50). -/
inductive BitOrder where
  | msbFirst
  | lsbFirst
  deriving DecidableEq, Repr

/-- Every parameter of 00_scope.md R5 and 30_encoding.md R67, under the spec's names. No rule reads `spiMinHz`,
`spiMode` or `spiBitOrder` (70_reset_and_hazards.md R184, 20_memory.md R50). -/
structure Config where
  ramWidth            : Nat
  ramHeight           : Nat
  tResetSettleMs      : Nat
  tResetLowMs         : Nat
  tResetReleaseMs     : Nat
  busyPollIntervalMs  : Nat
  busyPollMax         : Nat
  updateModeFull      : Byte
  spiMinHz            : Nat
  spiMode             : Nat
  spiBitOrder         : BitOrder
  fillWhite           : Byte
  fillBlack           : Byte
  checkerA            : Byte
  checkerB            : Byte
  stripePeriod        : Nat
  checkerBlockRows    : Nat
  cmd                 : CommandBytes
  docTrailer          : List Byte
  dataEntryModeValue  : Byte
  borderWaveformData  : List Byte
  tempSensorData      : List Byte
  duc1Data            : List Byte
  busyActiveLevel     : Level
  csActiveLevel       : Level
  black               : Byte
  coordBits           : Nat
  textLenBits         : Nat
  deriving DecidableEq, Repr

namespace Config

/-- `LOGICAL_WIDTH = RAM_HEIGHT` (00_scope.md R5). -/
def logicalWidth (c : Config) : Nat := c.ramHeight

/-- `LOGICAL_HEIGHT = RAM_WIDTH` (00_scope.md R5). -/
def logicalHeight (c : Config) : Nat := c.ramWidth

/-- `ROW_STRIDE = ceil(RAM_WIDTH/8)` (00_scope.md R5, 20_memory.md R41). -/
def rowStride (c : Config) : Nat := (c.ramWidth + 7) / 8

/-- `FB_SIZE = ROW_STRIDE * RAM_HEIGHT` (00_scope.md R5, 10_state.md R14). -/
def fbSize (c : Config) : Nat := c.rowStride * c.ramHeight

/-- The level of a deselected chip-select line. -/
def csIdleLevel (c : Config) : Level := ~~~ c.csActiveLevel

/-- The bounds of 00_scope.md R6; the types of 30_encoding.md R67, three data groups of 1 or more bytes; the two
divisors the fills divide by positive, as 00_scope.md R7 says of every division (DEDUCED, safe,
notes/assumptions/16.md); and the operand widths at least 1 and no wider than the 16-bit fields of a descriptor (DESIGN
CHOICE, safe, notes/assumptions/1.md). A configuration outside them is refused. -/
def wf (c : Config) : Bool :=
  decide (8 ≤ c.ramWidth) && decide (c.ramWidth % 8 = 0) &&
  decide (1 ≤ c.ramHeight) && decide (c.ramHeight ≤ 65536) &&
  decide (c.ramWidth / 8 - 1 ≤ 255) && decide (1 ≤ c.busyPollMax) &&
  decide (1 ≤ c.stripePeriod) && decide (1 ≤ c.checkerBlockRows) &&
  decide (c.borderWaveformData ≠ []) && decide (c.tempSensorData ≠ []) && decide (c.duc1Data ≠ []) &&
  decide (1 ≤ c.coordBits) && decide (c.coordBits ≤ 16) &&
  decide (1 ≤ c.textLenBits) && decide (c.textLenBits ≤ 16)

/-- The command byte of a panel command (30_encoding.md R66). -/
def code (c : Config) : PanelCommand → Byte
  | .swReset               => c.cmd.swReset
  | .driverOutputControl   => c.cmd.driverOutputControl
  | .dataEntryMode         => c.cmd.dataEntryMode
  | .setRamXWindow         => c.cmd.setRamXWindow
  | .setRamYWindow         => c.cmd.setRamYWindow
  | .borderWaveform        => c.cmd.borderWaveform
  | .tempSensor            => c.cmd.tempSensor
  | .displayUpdateControl1 => c.cmd.displayUpdateControl1
  | .setRamXCounter        => c.cmd.setRamXCounter
  | .setRamYCounter        => c.cmd.setRamYCounter
  | .writeRamBw            => c.cmd.writeRamBw
  | .displayUpdateControl2 => c.cmd.displayUpdateControl2
  | .masterActivation      => c.cmd.masterActivation

end Config

/-- The thirteen commands, in the order of 30_encoding.md R66's table. -/
def PanelCommand.all : List PanelCommand :=
  [.swReset, .driverOutputControl, .dataEntryMode, .setRamXWindow, .setRamYWindow, .borderWaveform, .tempSensor,
   .displayUpdateControl1, .setRamXCounter, .setRamYCounter, .writeRamBw, .displayUpdateControl2, .masterActivation]

/-- The panel command a command byte stands for, the first of the thirteen with that code. -/
def Config.commandOf (c : Config) (b : Byte) : Option PanelCommand :=
  PanelCommand.all.find? (fun k => c.code k == b)

/-! ### Free values: no body, so nothing can be proved of what they are -/

/-- What `FB[address]` holds after the `epoch`-th core reset until something writes it: unspecified, any value
(10_state.md R15, 93_implementation_defined.md U5, notes/assumptions/4.md). -/
opaque Config.freeFb : (epoch address : Nat) → Byte

/-- The level of DC after the `epoch`-th core reset until it is driven (93_implementation_defined.md U6,
notes/assumptions/5.md). -/
opaque Config.freeDcLevel : (epoch : Nat) → Level

/-- The level of RST after the `epoch`-th core reset until it is driven (93_implementation_defined.md U6,
notes/assumptions/5.md). -/
opaque Config.freeRstLevel : (epoch : Nat) → Level

/-- The panel's answer to the `k`-th `sample_busy()` when State schedules none (10_state.md R34,
notes/assumptions/3.md). -/
opaque Config.freeBusy : (k : Nat) → Level

/-- The link layer's LINKFAULT answer for the `k`-th transfer when State schedules none (60_exceptions.md R162,
notes/assumptions/3.md). -/
opaque Config.freeLinkFault : (k : Nat) → Level

end Sys2Proof
end

