-- ==== Sys2Proof/Syntax.lean ====
section
/-! DEFINITION. The instructions: one constructor for each row of spec/opcode_table.json. -/

namespace Sys2Proof

/-- The glyph source record of 10_state.md R28. `firstCode ≤ lastCode` is part of the record's type
(92_eei_decisions.md D22), so it is carried as a proof. -/
structure GlyphSource where
  byteTable    : List Byte
  cellWidth    : Byte
  cellHeight   : Byte
  firstCode    : Byte
  lastCode     : Byte
  codesOrdered : firstCode ≤ lastCode
  deriving DecidableEq, Repr

/-- The six host operations (30_encoding.md R76), the three Transport sequences (R60) and the thirteen panel
commands (R66).

DRAWTEXT carries its coordinates as the integers R78 assembles, and its two operand spaces (R79): the text, whose
length is the descriptor's `len`, and the glyph source, present exactly when the descriptor's `g` is 1. -/
inductive Instr where
  | initPanel
  | clear (fill : Byte)
  | display
  | drawText (x y : Int) (text : List Byte) (glyphs : Option GlyphSource) (color : Byte)
  | fillPattern
  | fillCheckerboard
  | sendCommand (c : Byte)
  | sendData (d : Byte)
  | sendDataBlock (bytes : List Byte)
  | cmdSwReset
  | cmdDriverOutputControl
  | cmdDataEntryMode
  | cmdSetRamXWindow
  | cmdSetRamYWindow
  | cmdBorderWaveform
  | cmdTempSensor
  | cmdDisplayUpdateControl1
  | cmdSetRamXCounter
  | cmdSetRamYCounter
  | cmdWriteRamBw
  | cmdDisplayUpdateControl2
  | cmdMasterActivation
  deriving DecidableEq, Repr

/-- The instruction of a panel command. -/
def PanelCommand.instr : PanelCommand → Instr
  | .swReset               => .cmdSwReset
  | .driverOutputControl   => .cmdDriverOutputControl
  | .dataEntryMode         => .cmdDataEntryMode
  | .setRamXWindow         => .cmdSetRamXWindow
  | .setRamYWindow         => .cmdSetRamYWindow
  | .borderWaveform        => .cmdBorderWaveform
  | .tempSensor            => .cmdTempSensor
  | .displayUpdateControl1 => .cmdDisplayUpdateControl1
  | .setRamXCounter        => .cmdSetRamXCounter
  | .setRamYCounter        => .cmdSetRamYCounter
  | .writeRamBw            => .cmdWriteRamBw
  | .displayUpdateControl2 => .cmdDisplayUpdateControl2
  | .masterActivation      => .cmdMasterActivation

/-- What stands for one instruction: a host request, its descriptor with the two operand spaces that travel beside
it (30_encoding.md R77, R79); or the symbols of one wire frame, first symbol first (R60), which no host can request and
only the sequencer itself produces (R84). -/
inductive Words where
  | request (desc : Descriptor) (text : List Byte) (glyphs : Option GlyphSource)
  | frame (symbols : List Symbol)
  deriving DecidableEq, Repr

end Sys2Proof
end

