-- ==== Sys2Proof/WellFormed.lean ====
section
/-! DEFINITION. Which instructions are well formed: their operands fit their encoding, and they are the spelling
the decoder gives the words they encode to (notes/assumptions/13.md). -/

namespace Sys2Proof

/-- A panel command's code is its own: no earlier command of the table has the same byte. Pairwise distinct
codes, the one thing 30_encoding.md R66 lets a model assume, make this true of all thirteen. -/
def PanelCommand.wf (cfg : Config) (k : PanelCommand) : Bool := cfg.commandOf (cfg.code k) == some k

/-- The thirteen command bytes are pairwise distinct (30_encoding.md R66). -/
abbrev Config.codesDistinct (cfg : Config) : Prop := (PanelCommand.all.map cfg.code).Nodup

/-- `x` is a coordinate: a number of `COORD_BITS` bits that a descriptor's 16-bit field holds (30_encoding.md R77,
R78). -/
def Config.coordFits (cfg : Config) (x : Int) : Bool := fitsSigned cfg.coordBits x && fitsSigned 16 x

/-- `n` is the length of a text: a number of `TEXT_LEN_BITS` bits that the field `len` holds (10_state.md R29). -/
def Config.lenFits (cfg : Config) (n : Nat) : Bool := decide (n < 2 ^ cfg.textLenBits) && decide (n < 2 ^ 16)

/-- Well-formedness: the coordinates and the text's length fit their operands; a SENDCOMMAND byte that is one of the
thirteen codes is spelled as that panel command; a block has 2 to FB_SIZE bytes (40_transport.md R91: a one-byte
block is the same frame as a SENDDATA, 30_encoding.md R60, and is spelled so). -/
def Instr.wf (cfg : Config) : Instr → Bool
  | .initPanel                => true
  | .clear _                  => true
  | .display                  => true
  | .drawText x y text _ _    => cfg.coordFits x && cfg.coordFits y && cfg.lenFits text.length
  | .fillPattern              => true
  | .fillCheckerboard         => true
  | .sendCommand c            => cfg.commandOf c == none
  | .sendData _               => true
  | .sendDataBlock bytes      => decide (2 ≤ bytes.length) && decide (bytes.length ≤ cfg.fbSize)
  | .cmdSwReset               => PanelCommand.swReset.wf cfg
  | .cmdDriverOutputControl   => PanelCommand.driverOutputControl.wf cfg
  | .cmdDataEntryMode         => PanelCommand.dataEntryMode.wf cfg
  | .cmdSetRamXWindow         => PanelCommand.setRamXWindow.wf cfg
  | .cmdSetRamYWindow         => PanelCommand.setRamYWindow.wf cfg
  | .cmdBorderWaveform        => PanelCommand.borderWaveform.wf cfg
  | .cmdTempSensor            => PanelCommand.tempSensor.wf cfg
  | .cmdDisplayUpdateControl1 => PanelCommand.displayUpdateControl1.wf cfg
  | .cmdSetRamXCounter        => PanelCommand.setRamXCounter.wf cfg
  | .cmdSetRamYCounter        => PanelCommand.setRamYCounter.wf cfg
  | .cmdWriteRamBw            => PanelCommand.writeRamBw.wf cfg
  | .cmdDisplayUpdateControl2 => PanelCommand.displayUpdateControl2.wf cfg
  | .cmdMasterActivation      => PanelCommand.masterActivation.wf cfg

end Sys2Proof
end

