-- ==== Sys2Proof/Decode.lean ====
section
/-! DEFINITION. The decoder, total on every descriptor and every frame, rejecting by name; the encoder, written
from the same tables (30_encoding.md R60, R66, R77); the default parameters of 00_scope.md R5, R66 and R67. -/

namespace Sys2Proof

/-! ### The default parameters -/

/-- Default command bytes, 30_encoding.md R66: PRESUMED, the spec takes them from general knowledge
(notes/assumptions/2.md). -/
def CommandBytes.default : CommandBytes where
  swReset               := 0x12#8
  driverOutputControl   := 0x01#8
  dataEntryMode         := 0x11#8
  setRamXWindow         := 0x44#8
  setRamYWindow         := 0x45#8
  borderWaveform        := 0x3C#8
  tempSensor            := 0x18#8
  displayUpdateControl1 := 0x21#8
  setRamXCounter        := 0x4E#8
  setRamYCounter        := 0x4F#8
  writeRamBw            := 0x24#8
  displayUpdateControl2 := 0x22#8
  masterActivation      := 0x20#8

/-- The values this hardware takes: 00_scope.md R5, 30_encoding.md R66 and R67 (notes/assumptions/2.md names
those that the spec itself takes from general knowledge). -/
def Config.default : Config where
  ramWidth           := 128
  ramHeight          := 296
  tResetSettleMs     := 200
  tResetLowMs        := 10
  tResetReleaseMs    := 200
  busyPollIntervalMs := 10
  busyPollMax        := 400
  updateModeFull     := 0xF7#8
  spiMinHz           := 4000000
  spiMode            := 0
  spiBitOrder        := .msbFirst
  fillWhite          := 0xFF#8
  fillBlack          := 0x00#8
  checkerA           := 0xAA#8
  checkerB           := 0x55#8
  stripePeriod       := 16
  checkerBlockRows   := 8
  cmd                := CommandBytes.default
  docTrailer         := [0x00#8]
  dataEntryModeValue := 0x03#8
  borderWaveformData := [0x05#8]
  tempSensorData     := [0x80#8]
  duc1Data           := [0x00#8, 0x80#8]
  busyActiveLevel    := 1#1
  csActiveLevel      := 0#1
  black              := 0x00#8
  coordBits          := 16
  textLenBits        := 16

/-! ### Descriptor fields (30_encoding.md R77) -/

namespace Descriptor

/-- Bits 63:60. -/
def op (d : Descriptor) : BitVec 4 := d.extractLsb' 60 4
/-- Bit 59: a glyph source is supplied. -/
def g (d : Descriptor) : BitVec 1 := d.extractLsb' 59 1
/-- Bits 58:56, which must be zero (R80). -/
def reserved (d : Descriptor) : BitVec 3 := d.extractLsb' 56 3
/-- Bits 55:48: `fill` of CLEAR, `color` of DRAWTEXT. -/
def arg8 (d : Descriptor) : Byte := d.extractLsb' 48 8
/-- Bits 47:32, two's complement. -/
def x (d : Descriptor) : Field16 := d.extractLsb' 32 16
/-- Bits 31:16, two's complement. -/
def y (d : Descriptor) : Field16 := d.extractLsb' 16 16
/-- Bits 15:0, unsigned. -/
def len (d : Descriptor) : Field16 := d.extractLsb' 0 16

/-- A descriptor from its fields, bit 63 first, the reserved bits zero. -/
def mk (op : BitVec 4) (g : BitVec 1) (arg8 : Byte) (x y len : Field16) : Descriptor :=
  (op ++ g ++ 0#3 ++ arg8 ++ x ++ y ++ len).cast rfl

end Descriptor

/-- A coordinate operand: the low `COORD_BITS` bits of its field, sign-extended (30_encoding.md R78; at a width other
than 16 the model's reading, notes/assumptions/1.md). -/
def Config.coord (cfg : Config) (field : Field16) : Int := (field.signExtend cfg.coordBits).toInt

/-- The length operand: the low `TEXT_LEN_BITS` bits of its field, unsigned (30_encoding.md R78; at a width other than
16 the model's reading, notes/assumptions/1.md). -/
def Config.textLen (cfg : Config) (field : Field16) : Nat := field.toNat % 2 ^ cfg.textLenBits

/-! ### The decoder -/

/-- Why words are no instruction. -/
inductive DecodeError where
  /-- Descriptor bits 58:56 are not zero (30_encoding.md R80). -/
  | reservedBits
  /-- The selector is one of 6 to 15 (30_encoding.md R80). -/
  | reservedSelector
  /-- `g` is 1 and no glyph source came with the request (30_encoding.md R79). -/
  | glyphSourceMissing
  /-- The text that came with the request has fewer than `len` codes (20_memory.md R47). -/
  | textTooShort
  /-- A frame without a symbol (30_encoding.md R60: one byte or more). -/
  | emptyFrame
  /-- A frame of several symbols that are not all data (30_encoding.md R60: a CMD frame is exactly one byte). -/
  | mixedFrame
  /-- A block of more than FB_SIZE bytes (40_transport.md R91). -/
  | frameTooLong
  deriving DecidableEq, Repr

/-- The operands of a DRAWTEXT. With `g = 0` neither the text nor a glyph source is read (43_rasterizer.md R154),
so nothing about them is checked. -/
def decodeDrawText (cfg : Config) (d : Descriptor) (text : List Byte) (glyphs : Option GlyphSource) :
    Except DecodeError Instr :=
  let x := cfg.coord d.x
  let y := cfg.coord d.y
  let len := cfg.textLen d.len
  if d.g = 0#1 then .ok (.drawText x y (text.take len) none d.arg8)
  else
    match glyphs with
    | none => .error .glyphSourceMissing
    | some gs =>
      if text.length < len then .error .textTooShort
      else .ok (.drawText x y (text.take len) (some gs) d.arg8)

/-- A host request: 30_encoding.md R76 to R81. Fields an operation does not use are ignored (R81). -/
def decodeRequest (cfg : Config) (d : Descriptor) (text : List Byte) (glyphs : Option GlyphSource) :
    Except DecodeError Instr :=
  if d.reserved ≠ 0#3 then .error .reservedBits
  else
    match d.op.toNat with
    | 0 => .ok .initPanel
    | 1 => .ok (.clear d.arg8)
    | 2 => .ok .display
    | 3 => decodeDrawText cfg d text glyphs
    | 4 => .ok .fillPattern
    | 5 => .ok .fillCheckerboard
    | _ => .error .reservedSelector

/-- Bit 8 of a symbol, the level of the select line (30_encoding.md R60). -/
def Symbol.dc (s : Symbol) : Level := s.extractLsb' 8 1

/-- Bits 7:0 of a symbol. -/
def Symbol.byte (s : Symbol) : Byte := s.extractLsb' 0 8

/-- A symbol from a select level and a byte. -/
def Symbol.mk (dc : Level) (b : Byte) : Symbol := (dc ++ b).cast rfl

/-- A CMD symbol: the panel command with that code, else a SENDCOMMAND of the byte. -/
def decodeCommand (cfg : Config) (c : Byte) : Instr :=
  match cfg.commandOf c with
  | some k => k.instr
  | none   => .sendCommand c

/-- A wire frame: a CMD frame is one symbol with bit 8 zero, a DAT frame one with bit 8 one, a BLK frame several
with bit 8 one (30_encoding.md R60). -/
def decodeFrame (cfg : Config) : List Symbol → Except DecodeError Instr
  | []  => .error .emptyFrame
  | [s] => if s.dc = 0#1 then .ok (decodeCommand cfg s.byte) else .ok (.sendData s.byte)
  | ss  =>
    if ss.all (fun s => s.dc == 1#1) then
      if cfg.fbSize < ss.length then .error .frameTooLong else .ok (.sendDataBlock (ss.map Symbol.byte))
    else .error .mixedFrame

/-- The decoder. -/
def decode (cfg : Config) : Words → Except DecodeError Instr
  | .request d text glyphs => decodeRequest cfg d text glyphs
  | .frame symbols         => decodeFrame cfg symbols

/-! ### The encoder -/

/-- The one CMD symbol of a panel command. -/
def encodeCommand (cfg : Config) (k : PanelCommand) : Words := .frame [Symbol.mk 0#1 (cfg.code k)]

/-- The words of an instruction; a field it does not use is zero. -/
def encode (cfg : Config) : Instr → Words
  | .initPanel                    => .request (Descriptor.mk 0 0 0 0 0 0) [] none
  | .clear fill                   => .request (Descriptor.mk 1 0 fill 0 0 0) [] none
  | .display                      => .request (Descriptor.mk 2 0 0 0 0 0) [] none
  | .drawText x y text glyphs col =>
    .request (Descriptor.mk 3 (if glyphs.isSome then 1 else 0) col (BitVec.ofInt 16 x) (BitVec.ofInt 16 y)
      (BitVec.ofNat 16 text.length)) text glyphs
  | .fillPattern                  => .request (Descriptor.mk 4 0 0 0 0 0) [] none
  | .fillCheckerboard             => .request (Descriptor.mk 5 0 0 0 0 0) [] none
  | .sendCommand c                => .frame [Symbol.mk 0#1 c]
  | .sendData d                   => .frame [Symbol.mk 1#1 d]
  | .sendDataBlock bytes          => .frame (bytes.map (Symbol.mk 1#1))
  | .cmdSwReset                   => encodeCommand cfg .swReset
  | .cmdDriverOutputControl       => encodeCommand cfg .driverOutputControl
  | .cmdDataEntryMode             => encodeCommand cfg .dataEntryMode
  | .cmdSetRamXWindow             => encodeCommand cfg .setRamXWindow
  | .cmdSetRamYWindow             => encodeCommand cfg .setRamYWindow
  | .cmdBorderWaveform            => encodeCommand cfg .borderWaveform
  | .cmdTempSensor                => encodeCommand cfg .tempSensor
  | .cmdDisplayUpdateControl1     => encodeCommand cfg .displayUpdateControl1
  | .cmdSetRamXCounter            => encodeCommand cfg .setRamXCounter
  | .cmdSetRamYCounter            => encodeCommand cfg .setRamYCounter
  | .cmdWriteRamBw                => encodeCommand cfg .writeRamBw
  | .cmdDisplayUpdateControl2     => encodeCommand cfg .displayUpdateControl2
  | .cmdMasterActivation          => encodeCommand cfg .masterActivation

/-! ### Words numbered as spec/opcode_table.json numbers them (notes/assumptions/14.md) -/

/-- A glyph source of zeros: what a descriptor with `g = 1` stands for when no operand space comes with it. -/
def GlyphSource.zero : GlyphSource where
  byteTable    := []
  cellWidth    := 0
  cellHeight   := 0
  firstCode    := 0
  lastCode     := 0
  codesOrdered := by decide

/-- `n` symbols, the first in the least significant 9 bits. -/
def symbolsOf : Nat → Nat → List Symbol
  | 0, _     => []
  | n + 1, w => BitVec.ofNat 9 w :: symbolsOf n (w / 512)

/-- The words of a table row's bits: 64 bits or more are a descriptor, whose operand spaces hold zeros; fewer are
as many whole 9-bit symbols as fit, at least one. Bits beyond the last symbol exist on no wire and are dropped. -/
def tableWords (nbits w : Nat) : Words :=
  if 64 ≤ nbits then
    let d : Descriptor := BitVec.ofNat 64 w
    .request d (List.replicate d.len.toNat 0) (some GlyphSource.zero)
  else .frame (symbolsOf (max 1 (nbits / 9)) w)

/-- What the decoder reads, under the default parameters, from a row's bits. -/
def decodeTableWord (nbits w : Nat) : Option Instr := (decode Config.default (tableWords nbits w)).toOption

end Sys2Proof
end

