-- ==== Sys2Proof/Machine/State.lean ====
section
/-! DEFINITION. The state of EPD-Core (10_state.md R10), its reset, and the reasons a step can stop. -/

namespace Sys2Proof.Machine

/-- The protocol states of 10_state.md R11. `deepSleep` is named by the spec and entered by nothing
(41_panel_protocol.md R118). -/
inductive PState where
  | uninitialized
  | resetting
  | softResetting
  | configuring
  | idle
  | updating
  | deepSleep
  | halted
  deriving DecidableEq, Repr

/-- Where WAITBUSY is called (41_panel_protocol.md R106). -/
inductive WaitSite where
  | afterHwReset
  | afterSwReset
  | afterConfig
  | afterActivation
  deriving DecidableEq, Repr

/-- The warning records of 60_exceptions.md R164 to R167. -/
inductive Warning where
  | busyTimeout (site : WaitSite)
  | glyphSkipped (index : Nat) (code : Byte)
  | noGlyphSource
  deriving DecidableEq, Repr

/-- The sticky warning flags WF_BUSY_TIMEOUT, WF_GLYPH_SKIPPED, WF_NO_GLYPH_SOURCE (10_state.md R20). -/
structure WFlags where
  busyTimeout   : Bool
  glyphSkipped  : Bool
  noGlyphSource : Bool
  deriving DecidableEq, Repr

/-- The wire events of 10_state.md R30. -/
inductive Event where
  | rst (v : Level)
  | dc (v : Level)
  | cs (v : Level)
  | xfer (bytes : List Byte)
  | delay (ms : Nat)
  | busy (v : Level)
  deriving DecidableEq, Repr

/-- The working registers of 10_state.md R19. `charIdx` counts modulo `2 ^ TEXT_LEN_BITS`, its width there. -/
structure WorkRegs where
  curX      : Int
  charIdx   : Nat
  gRow      : BitVec 8
  gCol      : BitVec 8
  pollCnt   : Nat
  streamIdx : Nat
  delayTmr  : Nat
  deriving DecidableEq, Repr

/-- The six host operations, as the site of a bus fault names them. -/
inductive Operation where
  | initPanel
  | clear
  | display
  | drawText
  | fillPattern
  | fillCheckerboard
  deriving DecidableEq, Repr

/-- The three Transport calls (40_transport.md R90). -/
inductive TransportCall where
  | sendCommand
  | sendData
  | sendDataBlock
  deriving DecidableEq, Repr

/-- The `site` of a bus fault: which Transport call of which operation (60_exceptions.md R160). `index` counts
the operation's Transport calls from 0. For a sequence stepped by itself (notes/assumptions/11.md) what the site holds is
the model's choice (notes/assumptions/8.md): no operation is named, and `index` counts every Transport call since an
operation was last accepted or completed or the core reset, those of earlier sequences stepped by themselves too. -/
structure FaultSite where
  operation : Option Operation
  index     : Nat
  call      : TransportCall
  deriving DecidableEq, Repr

/-- The model's own record of the operation in progress and of its Transport calls so far. -/
structure OpContext where
  operation : Option Operation
  calls     : Nat
  deriving DecidableEq, Repr

/-- The environment's answers (10_state.md R36): the scheduled ones, next first, and how many were taken. When
none is scheduled an answer is a free value (notes/assumptions/3.md). -/
structure Env where
  busyAnswers : List Level
  busyTaken   : Nat
  linkAnswers : List Level
  linkTaken   : Nat
  deriving DecidableEq, Repr

/-- What comes to EPD-Core from outside: a request, its descriptor with the two operand spaces (30_encoding.md R77,
R79), or a core reset (70_reset_and_hazards.md R180). No frame: the host cannot request an internal sequence (R84). -/
inductive Input where
  | request (desc : Descriptor) (text : List Byte) (glyphs : Option GlyphSource)
  | coreReset
  deriving DecidableEq, Repr

/-- The bytes of `FB` that something has written, by address, strictly rising. An address that is not listed
holds no specified value (notes/assumptions/4.md). -/
abbrev Memory := List Host.Cell

/-- The canonical form: addresses strictly rising. An unlisted address reads as no specified value, so no entry
equals what an unlisted address reads as. -/
abbrev Memory.wf (m : Memory) : Prop := (m.map Prod.fst).Pairwise (· < ·)

/-- The state of EPD-Core. `fb`, `pstate` to `traceRev` and `work` are 10_state.md R10's tuple (`traceRev` holds
TRACE newest event first, `State.trace` reads it in R30's order); `response` and `busFault` are
the output and the recorded information of 30_encoding.md R82 and 60_exceptions.md R160; `cfg`, `pending`, `frames`,
`env`, `epoch` and `ctx` are the model's own. `frames` holds frames the sequencer itself has still to send inside an
operation in progress, next first: no input and no step puts one there (notes/assumptions/11.md). -/
structure State where
  cfg      : Config
  fb       : Memory
  epoch    : Nat
  pstate   : PState
  exec     : Bool
  cs       : Level
  dc       : Level
  rst      : Level
  wflags   : WFlags
  warnlog  : List Warning
  traceRev : List Event
  work     : WorkRegs
  response : Option (List Warning)
  busFault : Option FaultSite
  ctx      : OpContext
  env      : Env
  pending  : List Input
  frames   : List (List Symbol)
  deriving DecidableEq, Repr

/-- `TRACE`: everything done on or read from the lines since core reset, in order (10_state.md R30). -/
def State.trace (s : State) : List Event := s.traceRev.reverse

/-- Fault outcomes: none. The spec's one fault, `BusFault`, describes the state it leaves (60_exceptions.md R161),
so it is taken as a next state, in which `pstate` is `halted` (notes/assumptions/8.md). -/
inductive Fault where
  deriving DecidableEq, Repr

/-- Why a request has no meaning (60_exceptions.md R170) and why words the sequencer could not have produced have
none. All safe: the model says nothing where hardware might go on. -/
inductive Refusal where
  /-- An instruction without a meaning yet; no arm uses it. Safe. -/
  | notModelled (mnemonic : String)
  /-- Raised by every instruction when PSTATE is Halted (60_exceptions.md R171, R161). Safe. -/
  | halted
  /-- Raised by every host operation when EXEC is 1 (60_exceptions.md R172). Safe. -/
  | operationInProgress
  /-- Raised by step: a selector of 6 to 15 or a reserved bit (30_encoding.md R80). Safe. -/
  | reservedEncoding
  /-- Raised by INITIALIZE outside Uninitialized and DISPLAY outside Idle (60_exceptions.md R173). Safe. -/
  | wrongState
  /-- Raised by DRAWTEXT with a glyph table shorter than its range needs (10_state.md R28). Safe. -/
  | glyphTableTooShort
  /-- Raised by every instruction when the parameters are outside 00_scope.md R6. Safe. -/
  | badConfiguration
  /-- Raised by step: a DRAWTEXT with `g = 1` whose glyph source is missing or whose text is shorter than `len`,
  an access outside an operand space (20_memory.md R47). Safe. -/
  | operandSpaceTooShort
  /-- Raised by step: symbols that are no CMD, DAT or BLK frame (30_encoding.md R60). Safe. -/
  | illFormedFrame
  /-- Raised by SENDDATABLOCK with no byte or more than FB_SIZE bytes (40_transport.md R91, R94). Safe. -/
  | blockLength
  deriving DecidableEq, Repr

/-- No warning flag set. -/
def WFlags.none : WFlags := ⟨false, false, false⟩

/-- The working registers after core reset: DESIGN CHOICE 0 (notes/assumptions/6.md). -/
def WorkRegs.zero : WorkRegs := ⟨0, 0, 0, 0, 0, 0, 0⟩

/-- The state right after core reset, under the default parameters (10_state.md R35). -/
def State.reset : State where
  cfg      := Config.default
  fb       := []
  epoch    := 0
  pstate   := .uninitialized
  exec     := false
  cs       := Config.default.csIdleLevel
  dc       := Config.freeDcLevel 0
  rst      := Config.freeRstLevel 0
  wflags   := WFlags.none
  warnlog  := []
  traceRev := []
  work     := WorkRegs.zero
  response := none
  busFault := none
  ctx      := ⟨none, 0⟩
  env      := ⟨[], 0, [], 0⟩
  pending  := []
  frames   := []

end Sys2Proof.Machine
end

