-- ==== Sys2Proof/Machine/Flags.lean ====
section
/-! DEFINITION. The warning flags and the warning log (10_state.md R20, R21; 60_exceptions.md R164), and the
numeric codes of 10_state.md R11 and 60_exceptions.md R160. -/

namespace Sys2Proof.Machine

/-- The encoding of PSTATE (10_state.md R11). -/
def PState.code : PState → BitVec 3
  | .uninitialized => 0
  | .resetting     => 1
  | .softResetting => 2
  | .configuring   => 3
  | .idle          => 4
  | .updating      => 5
  | .deepSleep     => 6
  | .halted        => 7

/-- The code of a warning (60_exceptions.md R160). -/
def Warning.code : Warning → Nat
  | .busyTimeout _    => 2
  | .glyphSkipped _ _ => 3
  | .noGlyphSource    => 4

/-- The code of `BusFault` (60_exceptions.md R160). -/
def busFaultCode : Nat := 1

/-- Set the sticky flag of a warning's kind (10_state.md R20). -/
def WFlags.set (f : WFlags) : Warning → WFlags
  | .busyTimeout _    => { f with busyTimeout := true }
  | .glyphSkipped _ _ => { f with glyphSkipped := true }
  | .noGlyphSource    => { f with noGlyphSource := true }

/-- `warn W(info)`: append the record, set its flag, go on (60_exceptions.md R164). -/
def warn (w : Warning) (s : State) : State :=
  { s with warnlog := s.warnlog ++ [w], wflags := s.wflags.set w }

end Sys2Proof.Machine
end

