-- ==== Sys2Proof/Machine/Ops.lean ====
section
/-! DEFINITION. The named operations over the state: framebuffer bytes, lines and events, environment answers,
accepting and completing a request, taking the bus fault, and core reset, the one way back from it. -/

namespace Sys2Proof.Machine

/-! ### The framebuffer as memory (20_memory.md R46 to R48) -/

/-- The byte listed at an address, if something has written it. -/
def Memory.lookup : Memory → Nat → Option Byte
  | [], _          => none
  | (k, v) :: m, a => if k = a then some v else Memory.lookup m a

/-- Write one byte, keeping the canonical form. -/
def Memory.write : Memory → Nat → Byte → Memory
  | [], a, b          => [(a, b)]
  | (k, v) :: m, a, b =>
    if a < k then (a, b) :: (k, v) :: m
    else if a = k then (a, b) :: m
    else (k, v) :: Memory.write m a b

/-- Write the bytes `f 0 .. f (n-1)` at addresses `0 .. n-1`: the loop of `n` single-byte writes, whose order is
not observable (42_framebuffer.md R131). -/
def Memory.fill (n : Nat) (f : Nat → Byte) (m : Memory) : Memory :=
  (List.range n).map (fun i => (i, f i)) ++ m.filter (fun c => decide (n ≤ c.1))

/-- The `n` bytes from address `a` on, walking the list once; `free` is what an unlisted address holds. -/
def Memory.bytesFrom (free : Nat → Byte) : Nat → Nat → Memory → List Byte
  | 0, _, _          => []
  | n + 1, a, []     => free a :: Memory.bytesFrom free n (a + 1) []
  | n + 1, a, (k, v) :: m =>
    if k = a then v :: Memory.bytesFrom free n (a + 1) m
    else free a :: Memory.bytesFrom free n (a + 1) ((k, v) :: m)

/-- `MemRead(FB, a, 1)`: the byte last written, or the unspecified byte of this core reset (10_state.md R15). -/
def State.readFb (s : State) (a : Nat) : Byte := (s.fb.lookup a).getD (Config.freeFb s.epoch a)

/-- `MemWrite(FB, a, 1, v)`. -/
def writeFb (a : Nat) (v : Byte) (s : State) : State := { s with fb := s.fb.write a v }

/-- The whole framebuffer, `FB[0]` first (41_panel_protocol.md R115 step 5). -/
def State.fbBytes (s : State) : List Byte := s.fb.bytesFrom (Config.freeFb s.epoch) s.cfg.fbSize 0

/-! ### Lines, events and delays (00_scope.md R8, 10_state.md R16, R17, R30) -/

/-- `emit E`: `E` is appended to TRACE. -/
def emit (e : Event) (s : State) : State := { s with traceRev := e :: s.traceRev }

/-- `drive RST(v)`. -/
def driveRst (v : Level) (s : State) : State := emit (.rst v) { s with rst := v }

/-- `drive DC(v)`. -/
def driveDc (v : Level) (s : State) : State := emit (.dc v) { s with dc := v }

/-- `drive CS(v)`. -/
def driveCs (v : Level) (s : State) : State := emit (.cs v) { s with cs := v }

/-- `delay_ms(n)`: the timer counts down from `n` and is 0 when the wait is over (60_exceptions.md R174). -/
def delayMs (n : Nat) (s : State) : State := emit (.delay n) { s with work := { s.work with delayTmr := 0 } }

/-- `PSTATE <- p`. -/
def setPState (p : PState) (s : State) : State := { s with pstate := p }

/-! ### The environment's answers (notes/assumptions/3.md) -/

/-- The `k`-th answer still to come to `sample_busy()`, 0 for the next. -/
def State.busyAnswer (s : State) (k : Nat) : Level :=
  (s.env.busyAnswers[k]?).getD (Config.freeBusy (s.env.busyTaken + k))

/-- The `k`-th LINKFAULT answer still to come, 0 for the next transfer's. -/
def State.linkAnswer (s : State) (k : Nat) : Level :=
  (s.env.linkAnswers[k]?).getD (Config.freeLinkFault (s.env.linkTaken + k))

/-- `sample_busy()`: take the next answer and record it (00_scope.md R8). -/
def sampleBusy (s : State) : State :=
  emit (.busy (s.busyAnswer 0))
    { s with env := { s.env with busyAnswers := s.env.busyAnswers.tail, busyTaken := s.env.busyTaken + 1 } }

/-- LINKFAULT is asked for one transfer: its answer is taken. -/
def takeLink (s : State) : State :=
  { s with env := { s.env with linkAnswers := s.env.linkAnswers.tail, linkTaken := s.env.linkTaken + 1 } }

/-! ### The bus fault and core reset -/

/-- `raise BusFault(site)` (60_exceptions.md R161): PSTATE becomes Halted, the site is recorded, everything done so
far stands. EXEC stays as it is, 1 inside an operation; and no response is given, the one before having been withdrawn
when the operation was accepted (`accept`).

MODEL'S CHOICES where the spec is silent, for a sequence stepped by itself, which is no operation of a host
(notes/assumptions/11.md): a response that an earlier, completed operation left stays readable, and the site names no
operation and has the index `ctx.calls`, which counts the calls of earlier such sequences too (notes/assumptions/8.md). -/
def raiseBusFault (call : TransportCall) (s : State) : State :=
  { s with
    pstate := .halted
    busFault := some { operation := s.ctx.operation, index := s.ctx.calls, call := call } }

/-- Core reset (70_reset_and_hazards.md R180): every piece of state takes the value of 10_state.md R35, with free
values of its own, and the sequencer has no frame left to send. The parameters, the environment and the inputs still to
come are no state of EPD-Core and stay (notes/assumptions/10.md). -/
def coreReset (s : State) : State :=
  { State.reset with
    cfg := s.cfg, cs := s.cfg.csIdleLevel, epoch := s.epoch + 1,
    dc := Config.freeDcLevel (s.epoch + 1), rst := Config.freeRstLevel (s.epoch + 1),
    env := s.env, pending := s.pending }

/-! ### Requests (30_encoding.md R75, R82; 60_exceptions.md R170) -/

/-- `req_ready` (30_encoding.md R75). -/
def State.reqReady (s : State) : Bool := !s.exec && !decide (s.pstate = .halted)

/-- The refusal checks 1 and 2 of 60_exceptions.md R170, made of every request before its encoding is looked at. -/
def State.admission (s : State) : Option Refusal :=
  if s.pstate = .halted then some .halted
  else if s.exec then some .operationInProgress
  else none

/-- Check 6 of 60_exceptions.md R170. -/
def State.configCheck (s : State) : Option Refusal := if s.cfg.wf then none else some .badConfiguration

/-- Accept a request: EXEC becomes 1 and the response of the operation before is withdrawn. -/
def accept (op : Operation) (s : State) : State :=
  { s with exec := true, response := none, ctx := { operation := some op, calls := 0 } }

/-- The end of an operation (70_reset_and_hazards.md R196): EXEC becomes 0 and the response carries the warnings
appended since the log had `logged` records. An operation a bus fault ended does not get here (R161). -/
def complete (logged : Nat) (s : State) : State :=
  if s.pstate = .halted then s
  else { s with exec := false, response := some (s.warnlog.drop logged), ctx := { operation := none, calls := 0 } }

/-- Perform a host operation: the checks of 60_exceptions.md R170 in their order, `check` being those of the
operation itself, then its body between acceptance and completion. -/
def request (op : Operation) (check : Option Refusal) (body : State → State) (s : State) :
    Host.Outcome State Fault Refusal :=
  match (s.admission <|> check) <|> s.configCheck with
  | some r => .refused r
  | none   => .next (complete s.warnlog.length (body (accept op s)))

end Sys2Proof.Machine
end

