-- ==== Sys2Proof/Machine/Operands.lean ====
section
/-! DEFINITION. Bit and byte arithmetic (00_scope.md R7), framebuffer addressing (20_memory.md R40), the coordinate
transform (43_rasterizer.md R141), the glyph source's layout (R144, R145) and the parameters of the panel commands
(30_encoding.md R68). -/

namespace Sys2Proof.Machine

/-- `lo8(v)` as a byte (00_scope.md R7). -/
def lo8 (v : Nat) : Byte := BitVec.ofNat 8 (v % 256)

/-- `hi8(v)` as a byte (00_scope.md R7). -/
def hi8 (v : Nat) : Byte := BitVec.ofNat 8 (v / 256 % 256)

/-- A 16-bit parameter, low byte first (30_encoding.md R70). -/
def le16 (v : Nat) : List Byte := [lo8 v, hi8 v]

/-- `mask(k)`: the byte with only bit `7 - (k mod 8)` set (00_scope.md R7). -/
def mask (k : Nat) : Byte := 0x80#8 >>> (k % 8)

/-! ### Framebuffer addressing -/

/-- `byte_index(ram_x, ram_y)` (20_memory.md R40). -/
def byteIndex (cfg : Config) (ramX ramY : Nat) : Nat := ramY * cfg.rowStride + ramX / 8

/-- `bit_number(ram_x)` (20_memory.md R40). -/
def bitNumber (ramX : Nat) : Nat := 7 - ramX % 8

/-- The framebuffer bit of a RAM pixel: true is a white pixel (20_memory.md R40, R44). -/
def State.pixel (s : State) (ramX ramY : Nat) : Bool :=
  (s.readFb (byteIndex s.cfg ramX ramY)).getLsbD (bitNumber ramX)

/-! ### The 90° transform -/

/-- `ram_x` of a logical position (43_rasterizer.md R141). -/
def ramXOf (cfg : Config) (ly : Int) : Int := ((cfg.ramWidth : Int) - 1) - ly

/-- `ram_y` of a logical position (43_rasterizer.md R141). -/
def ramYOf (lx : Int) : Int := lx

end Sys2Proof.Machine

namespace Sys2Proof

/-! ### The glyph source -/

/-- `BPR = ceil(cellWidth/8)`, the bytes of one glyph row (43_rasterizer.md R144). -/
def GlyphSource.bytesPerRow (gs : GlyphSource) : Nat := (gs.cellWidth.toNat + 7) / 8

/-- The shortest table 10_state.md R28 allows. -/
def GlyphSource.tableBound (gs : GlyphSource) : Nat :=
  (gs.lastCode.toNat - gs.firstCode.toNat + 1) * gs.cellHeight.toNat * gs.bytesPerRow

/-- A code is in the supported printable range, both ends included (43_rasterizer.md R143). -/
def GlyphSource.supports (gs : GlyphSource) (code : Byte) : Bool :=
  decide (gs.firstCode ≤ code) && decide (code ≤ gs.lastCode)

/-- `base` of a code's cell (43_rasterizer.md R144). -/
def GlyphSource.cellBase (gs : GlyphSource) (code : Byte) : Nat :=
  (code.toNat - gs.firstCode.toNat) * gs.cellHeight.toNat * gs.bytesPerRow

/-- `MemRead(GLYPH, a, 1)`. Under 10_state.md R28's length check no address is outside (20_memory.md R47). -/
def GlyphSource.read (gs : GlyphSource) (a : Nat) : Byte := (gs.byteTable[a]?).getD 0

/-- The glyph bit test of 43_rasterizer.md R145. -/
def GlyphSource.bit (gs : GlyphSource) (code : Byte) (row col : Nat) : Bool :=
  decide (gs.read (gs.cellBase code + row * gs.bytesPerRow + col / 8) &&& Machine.mask col ≠ 0)

end Sys2Proof

namespace Sys2Proof.Machine

/-- The refusal check 5 of 60_exceptions.md R170. -/
def glyphTableCheck : Option GlyphSource → Option Refusal
  | none    => none
  | some gs => if gs.byteTable.length < gs.tableBound then some .glyphTableTooShort else none

/-! ### Panel command parameters -/

/-- The parameter bytes of each command, in wire order (30_encoding.md R68), each a DAT frame of its own. The
payload of the black/white RAM write is no DAT frame and is not here. -/
def panelParams (cfg : Config) : PanelCommand → List Byte
  | .swReset               => []
  | .driverOutputControl   => le16 (cfg.ramHeight - 1) ++ cfg.docTrailer
  | .dataEntryMode         => [cfg.dataEntryModeValue]
  | .setRamXWindow         => [0x00#8, lo8 (cfg.ramWidth / 8 - 1)]
  | .setRamYWindow         => le16 0 ++ le16 (cfg.ramHeight - 1)
  | .borderWaveform        => cfg.borderWaveformData
  | .tempSensor            => cfg.tempSensorData
  | .displayUpdateControl1 => cfg.duc1Data
  | .setRamXCounter        => [0x00#8]
  | .setRamYCounter        => le16 0
  | .writeRamBw            => []
  | .displayUpdateControl2 => [cfg.updateModeFull]
  | .masterActivation      => []

end Sys2Proof.Machine
end

