-- ==== Sys2Proof/Machine/Transport.lean ====
section
/-! DEFINITION. Transport: one transfer and the three sequences over it (40_transport.md R90 to R96). -/

namespace Sys2Proof.Machine

/-- `xfer(bytes)` (40_transport.md R91): chip select is asserted, LINKFAULT is asked; on a failure the bus fault is
raised with chip select left asserted, else the bytes go out and chip select is released. -/
def xfer (call : TransportCall) (bytes : List Byte) (s : State) : State :=
  let sel := driveCs s.cfg.csActiveLevel s
  if sel.linkAnswer 0 = 1#1 then raiseBusFault call (takeLink sel)
  else driveCs s.cfg.csIdleLevel (emit (.xfer bytes) (takeLink sel))

/-- The operation's Transport call is over: the next one's index. -/
def countCall (s : State) : State := { s with ctx := { s.ctx with calls := s.ctx.calls + 1 } }

/-- A Transport call: drive the select line, then one transfer (40_transport.md R90, R95). -/
def transport (call : TransportCall) (level : Level) (bytes : List Byte) (s : State) : State :=
  let t := xfer call bytes (driveDc level s)
  if t.pstate = .halted then t else countCall t

/-- `SENDCOMMAND(c)` (40_transport.md R92). -/
def sendCommand (c : Byte) (s : State) : State := transport .sendCommand 0#1 [c] s

/-- `SENDDATA(d)` (40_transport.md R93). -/
def sendData (d : Byte) (s : State) : State := transport .sendData 1#1 [d] s

/-- `STREAM_IDX <- n`. -/
def setStreamIdx (n : Nat) (s : State) : State := { s with work := { s.work with streamIdx := n } }

/-- `SENDDATABLOCK(bytes, length)` (40_transport.md R94). STREAM_IDX has counted every byte when the block is out,
and none when the link layer reports a failure (notes/assumptions/7.md). -/
def sendDataBlock (bytes : List Byte) (s : State) : State :=
  let t := transport .sendDataBlock 1#1 bytes (setStreamIdx 0 s)
  if t.pstate = .halted then t else setStreamIdx bytes.length t

end Sys2Proof.Machine
end

