-- ==== Sys2Proof/Machine/Protocol.lean ====
section
/-! DEFINITION. Panel Protocol: HWRESET, WAITBUSY, the panel commands as sequences, and the two operations
INITIALIZE and DISPLAY (41_panel_protocol.md R100 to R120). -/

namespace Sys2Proof.Machine

/-- `HWRESET` (41_panel_protocol.md R100). -/
def hwReset (s : State) : State :=
  let a := delayMs s.cfg.tResetSettleMs (driveRst 1#1 s)
  let b := delayMs s.cfg.tResetLowMs (driveRst 0#1 a)
  delayMs s.cfg.tResetReleaseMs (driveRst 1#1 b)

/-- `POLL_CNT <- n`. -/
def setPollCnt (n : Nat) (s : State) : State := { s with work := { s.work with pollCnt := n } }

/-- The loop of WAITBUSY with `n` samples left (41_panel_protocol.md R104). -/
def pollLoop (site : WaitSite) : Nat → State → State
  | 0, s     => warn (.busyTimeout site) s
  | n + 1, s =>
    let t := setPollCnt (s.work.pollCnt + 1) (sampleBusy s)
    if s.busyAnswer 0 ≠ s.cfg.busyActiveLevel then t
    else pollLoop site n (delayMs s.cfg.busyPollIntervalMs t)

/-- `WAITBUSY(site)` (41_panel_protocol.md R104). -/
def waitBusy (site : WaitSite) (s : State) : State := pollLoop site s.cfg.busyPollMax (setPollCnt 0 s)

/-- One statement of a fixed sequence. -/
inductive Act where
  | setState (p : PState)
  | hwReset
  | waitBusy (site : WaitSite)
  | sendCommand (c : Byte)
  | sendData (d : Byte)
  | sendDataBlock (bytes : List Byte)
  | sendFramebuffer
  deriving DecidableEq, Repr

/-- What one statement does; `sendFramebuffer` is `SENDDATABLOCK(FB, FB_SIZE)`. -/
def runAct (a : Act) (s : State) : State :=
  match a with
  | .setState p          => setPState p s
  | .hwReset             => hwReset s
  | .waitBusy site       => waitBusy site s
  | .sendCommand c       => sendCommand c s
  | .sendData d          => sendData d s
  | .sendDataBlock bytes => sendDataBlock bytes s
  | .sendFramebuffer     => sendDataBlock s.fbBytes s

/-- A sequence, statement after statement; after a bus fault nothing more happens (60_exceptions.md R161, R169). -/
def runActs : List Act → State → State
  | [], s      => s
  | a :: as, s => if s.pstate = .halted then s else runActs as (runAct a s)

/-- A panel command: its CMD frame and then its parameters (30_encoding.md R61, R68). -/
def panelActs (cfg : Config) (k : PanelCommand) : List Act :=
  .sendCommand (cfg.code k) ::
    (if k = .writeRamBw then [.sendFramebuffer] else (panelParams cfg k).map .sendData)

/-- Several panel commands. -/
def panelSeq (cfg : Config) (ks : List PanelCommand) : List Act := ks.flatMap (panelActs cfg)

/-- The sixteen steps of INITIALIZE (41_panel_protocol.md R110). -/
def initActs (cfg : Config) : List Act :=
  [.setState .resetting, .hwReset, .waitBusy .afterHwReset, .setState .softResetting]
  ++ panelActs cfg .swReset
  ++ [.waitBusy .afterSwReset, .setState .configuring]
  ++ panelSeq cfg [.driverOutputControl, .dataEntryMode, .setRamXWindow, .setRamYWindow, .borderWaveform,
      .tempSensor, .displayUpdateControl1, .setRamXCounter, .setRamYCounter]
  ++ [.waitBusy .afterConfig, .setState .idle]

/-- The nine steps of DISPLAY (41_panel_protocol.md R115). -/
def displayActs (cfg : Config) : List Act :=
  [.setState .updating]
  ++ panelSeq cfg [.setRamXCounter, .setRamYCounter, .writeRamBw, .displayUpdateControl2, .masterActivation]
  ++ [.waitBusy .afterActivation, .setState .idle]

/-- The refusal check 4 of 60_exceptions.md R170. -/
def stateCheck (wanted : PState) (s : State) : Option Refusal :=
  if s.pstate = wanted then none else some .wrongState

/-- `INITIALIZE` (41_panel_protocol.md R110). -/
def execInitPanel (s : State) : Host.Outcome State Fault Refusal :=
  request .initPanel (stateCheck .uninitialized s) (runActs (initActs s.cfg)) s

/-- `DISPLAY` (41_panel_protocol.md R115). -/
def execDisplay (s : State) : Host.Outcome State Fault Refusal :=
  request .display (stateCheck .idle s) (runActs (displayActs s.cfg)) s

end Sys2Proof.Machine
end

