-- ==== Sys2Proof/Machine/Internal.lean ====
section
/-! DEFINITION. The sequencer's internal sequences that have an encoding: the three Transport sequences (40_transport.md
R92 to R94) and the thirteen panel commands (30_encoding.md R66, R68), each as a step of its own
(notes/assumptions/11.md, notes/assumptions/12.md). -/

namespace Sys2Proof.Machine

/-- Perform an internal sequence. A Transport call checks neither PSTATE nor EXEC (40_transport.md R96); that the
sequencer makes one only inside an operation, EXEC being 1, is `fetch`'s rule (30_encoding.md R84). In Halted no
further line is driven (60_exceptions.md R161), and without a legal configuration nothing has a meaning
(00_scope.md R6). -/
def internal (acts : List Act) (s : State) : Host.Outcome State Fault Refusal :=
  if s.pstate = .halted then .refused .halted
  else if s.cfg.wf then .next (runActs acts s)
  else .refused .badConfiguration

/-- `SENDCOMMAND(c)` (40_transport.md R92). -/
def execSendCommand (c : Byte) (s : State) : Host.Outcome State Fault Refusal := internal [.sendCommand c] s

/-- `SENDDATA(d)` (40_transport.md R93). -/
def execSendData (d : Byte) (s : State) : Host.Outcome State Fault Refusal := internal [.sendData d] s

/-- `SENDDATABLOCK(bytes, length)` with `1 <= length <= FB_SIZE` (40_transport.md R91, R94). -/
def execSendDataBlock (bytes : List Byte) (s : State) : Host.Outcome State Fault Refusal :=
  if s.pstate = .halted then .refused .halted
  else if bytes.length = 0 ∨ s.cfg.fbSize < bytes.length then .refused .blockLength
  else internal [.sendDataBlock bytes] s

/-- "software reset", no parameters (30_encoding.md R68). -/
def execCmdSwReset (s : State) : Host.Outcome State Fault Refusal := internal (panelActs s.cfg .swReset) s

/-- "driver output control", the gate count and `DOC_TRAILER` (30_encoding.md R68). -/
def execCmdDriverOutputControl (s : State) : Host.Outcome State Fault Refusal :=
  internal (panelActs s.cfg .driverOutputControl) s

/-- "data-entry mode", one byte (30_encoding.md R68). -/
def execCmdDataEntryMode (s : State) : Host.Outcome State Fault Refusal := internal (panelActs s.cfg .dataEntryMode) s

/-- "RAM X window", two bytes (30_encoding.md R68, R69). -/
def execCmdSetRamXWindow (s : State) : Host.Outcome State Fault Refusal := internal (panelActs s.cfg .setRamXWindow) s

/-- "RAM Y window", two 16-bit bounds (30_encoding.md R68, R70). -/
def execCmdSetRamYWindow (s : State) : Host.Outcome State Fault Refusal := internal (panelActs s.cfg .setRamYWindow) s

/-- "border waveform" (30_encoding.md R67, R68). -/
def execCmdBorderWaveform (s : State) : Host.Outcome State Fault Refusal := internal (panelActs s.cfg .borderWaveform) s

/-- "temperature-sensor source" (30_encoding.md R67, R68). -/
def execCmdTempSensor (s : State) : Host.Outcome State Fault Refusal := internal (panelActs s.cfg .tempSensor) s

/-- "display-update-control-1" (30_encoding.md R67, R68). -/
def execCmdDisplayUpdateControl1 (s : State) : Host.Outcome State Fault Refusal :=
  internal (panelActs s.cfg .displayUpdateControl1) s

/-- The X RAM address counter, one byte (30_encoding.md R68, R69). -/
def execCmdSetRamXCounter (s : State) : Host.Outcome State Fault Refusal := internal (panelActs s.cfg .setRamXCounter) s

/-- The Y RAM address counter, two bytes (30_encoding.md R68, R70). -/
def execCmdSetRamYCounter (s : State) : Host.Outcome State Fault Refusal := internal (panelActs s.cfg .setRamYCounter) s

/-- "the black/white RAM payload": the command and the whole framebuffer as one block (30_encoding.md R68). -/
def execCmdWriteRamBw (s : State) : Host.Outcome State Fault Refusal := internal (panelActs s.cfg .writeRamBw) s

/-- "update-control-2", the full-refresh mode byte (30_encoding.md R68). -/
def execCmdDisplayUpdateControl2 (s : State) : Host.Outcome State Fault Refusal :=
  internal (panelActs s.cfg .displayUpdateControl2) s

/-- "master-activation", no parameters (30_encoding.md R68). -/
def execCmdMasterActivation (s : State) : Host.Outcome State Fault Refusal :=
  internal (panelActs s.cfg .masterActivation) s

end Sys2Proof.Machine
end

