-- ==== Sys2Proof/Machine/Framebuffer.lean ====
section
/-! DEFINITION. The whole-framebuffer operations CLEAR, FILLPATTERN and FILLCHECKERBOARD (42_framebuffer.md R130 to
R137), and PixelWrite, the one way a single pixel changes (20_memory.md R45). -/

namespace Sys2Proof.Machine

/-- Write every byte of `FB`, `f i` at address `i`; STREAM_IDX has counted them all. -/
def fillFb (f : Nat → Byte) (s : State) : State :=
  setStreamIdx s.cfg.fbSize { s with fb := s.fb.fill s.cfg.fbSize f }

/-- The byte FILLPATTERN writes in a RAM row (42_framebuffer.md R132). -/
def stripeByte (cfg : Config) (row : Nat) : Byte := if row % cfg.stripePeriod = 0 then cfg.fillBlack else cfg.fillWhite

/-- The byte FILLCHECKERBOARD writes at `(ram_row, byte_col)` (42_framebuffer.md R134). -/
def checkerByte (cfg : Config) (row col : Nat) : Byte :=
  if (row / cfg.checkerBlockRows + col) % 2 = 0 then cfg.checkerA else cfg.checkerB

/-- `CLEAR fill` (42_framebuffer.md R130). -/
def execClear (fill : Byte) (s : State) : Host.Outcome State Fault Refusal :=
  request .clear none (fillFb (fun _ => fill)) s

/-- `FILLPATTERN` (42_framebuffer.md R132): byte `i` is in RAM row `i / ROW_STRIDE`. -/
def execFillPattern (s : State) : Host.Outcome State Fault Refusal :=
  request .fillPattern none (fillFb (fun i => stripeByte s.cfg (i / s.cfg.rowStride))) s

/-- `FILLCHECKERBOARD` (42_framebuffer.md R134): byte `i` is at `(i / ROW_STRIDE, i mod ROW_STRIDE)`. -/
def execFillCheckerboard (s : State) : Host.Outcome State Fault Refusal :=
  request .fillCheckerboard none (fillFb (fun i => checkerByte s.cfg (i / s.cfg.rowStride) (i % s.cfg.rowStride))) s

/-- `PixelWrite(ram_x, ram_y, v)`, `v` true for 1, white (20_memory.md R45). -/
def pixelWrite (ramX ramY : Nat) (v : Bool) (s : State) : State :=
  let i := byteIndex s.cfg ramX ramY
  let m := mask ramX
  let b := s.readFb i
  writeFb i (if v then b ||| m else b &&& ~~~ m) s

end Sys2Proof.Machine
end

