-- ==== Sys2Proof/Machine/Rasterizer.lean ====
section
/-! DEFINITION. The Rasterizer: PLOT and DRAWTEXT (43_rasterizer.md R140 to R158). -/

namespace Sys2Proof.Machine

/-- `PLOT(lx, ly, color)`: the canvas check, the transform, the RAM check, the pixel (43_rasterizer.md R148 to
R151). -/
def plot (lx ly : Int) (color : Byte) (s : State) : State :=
  if ¬ (ly < (s.cfg.logicalHeight : Int) ∧ lx < (s.cfg.logicalWidth : Int)) then s
  else
    let rx := ramXOf s.cfg ly
    let ry := ramYOf lx
    if ¬ (0 ≤ rx ∧ rx < (s.cfg.ramWidth : Int) ∧ 0 ≤ ry ∧ ry < (s.cfg.ramHeight : Int)) then s
    else pixelWrite rx.toNat ry.toNat (color != s.cfg.black) s

/-- `G_ROW <- r`. -/
def setGRow (r : Nat) (s : State) : State := { s with work := { s.work with gRow := BitVec.ofNat 8 r } }

/-- `G_COL <- c`. -/
def setGCol (c : Nat) (s : State) : State := { s with work := { s.work with gCol := BitVec.ofNat 8 c } }

/-- One position of a glyph cell: a set bit is plotted, an unset one writes nothing (43_rasterizer.md R145, R153). -/
def drawPosition (gs : GlyphSource) (code : Byte) (y : Int) (color : Byte) (row : Nat) (s : State) (col : Nat) : State :=
  let t := setGCol col s
  if gs.bit code row col then plot (t.work.curX + col) (y + row) color t else t

/-- One row of a glyph cell: the inner loop of 43_rasterizer.md R140. -/
def drawRow (gs : GlyphSource) (code : Byte) (y : Int) (color : Byte) (s : State) (row : Nat) : State :=
  (List.range gs.cellWidth.toNat).foldl (drawPosition gs code y color row) (setGRow row s)

/-- A glyph cell: the outer loop of 43_rasterizer.md R140, which visits every row also where the rows are empty.
G_ROW and G_COL keep the last index their loop visited, and their old value where it visits none
(notes/assumptions/7.md). -/
def drawCell (gs : GlyphSource) (code : Byte) (y : Int) (color : Byte) (s : State) : State :=
  (List.range gs.cellHeight.toNat).foldl (drawRow gs code y color) s

/-- `CUR_X <- x`. -/
def setCurX (x : Int) (s : State) : State := { s with work := { s.work with curX := x } }

/-- `CHAR_IDX <- k`, a register of `TEXT_LEN_BITS` bits (10_state.md R19). -/
def setCharIdx (k : Nat) (s : State) : State :=
  { s with work := { s.work with charIdx := k % 2 ^ s.cfg.textLenBits } }

/-- One character: skipped with a warning when its code is out of range, the cursor unmoved; else its cell is drawn
and the cursor moves on by the cell width (43_rasterizer.md R143, R146). -/
def drawChar (gs : GlyphSource) (y : Int) (color : Byte) (index : Nat) (code : Byte) (s : State) : State :=
  let t := setCharIdx index s
  if gs.supports code then
    let u := drawCell gs code y color t
    setCurX (u.work.curX + gs.cellWidth.toNat) u
  else warn (.glyphSkipped index code) t

/-- The loop over the text, from character `index` on (43_rasterizer.md R140). -/
def drawChars (gs : GlyphSource) (y : Int) (color : Byte) : Nat → List Byte → State → State
  | _, [], s                => s
  | index, code :: codes, s => drawChars gs y color (index + 1) codes (drawChar gs y color index code s)

/-- The body of DRAWTEXT (43_rasterizer.md R140, R154). -/
def drawTextBody (x y : Int) (text : List Byte) (glyphs : Option GlyphSource) (color : Byte) (s : State) : State :=
  match glyphs with
  | none    => warn .noGlyphSource s
  | some gs => drawChars gs y color 0 text (setCurX x s)

/-- `DRAWTEXT x, y, text, glyphSource, color` (43_rasterizer.md R140). -/
def execDrawText (x y : Int) (text : List Byte) (glyphs : Option GlyphSource) (color : Byte) (s : State) :
    Host.Outcome State Fault Refusal :=
  request .drawText (glyphTableCheck glyphs) (drawTextBody x y text glyphs color) s

end Sys2Proof.Machine
end

