-- ==== Sys2Proof/Machine/Dispatch.lean ====
section
/-! DEFINITION. Every instruction's meaning, one arm each. -/

namespace Sys2Proof.Machine

def exec (i : Instr) (s : State) : Host.Outcome State Fault Refusal :=
  match i with
  | .initPanel => Sys2Proof.Machine.execInitPanel s
  | .clear fill => Sys2Proof.Machine.execClear fill s
  | .display => Sys2Proof.Machine.execDisplay s
  | .drawText x y text glyphs color => Sys2Proof.Machine.execDrawText x y text glyphs color s
  | .fillPattern => Sys2Proof.Machine.execFillPattern s
  | .fillCheckerboard => Sys2Proof.Machine.execFillCheckerboard s
  | .sendCommand c => Sys2Proof.Machine.execSendCommand c s
  | .sendData d => Sys2Proof.Machine.execSendData d s
  | .sendDataBlock bytes => Sys2Proof.Machine.execSendDataBlock bytes s
  | .cmdSwReset => Sys2Proof.Machine.execCmdSwReset s
  | .cmdDriverOutputControl => Sys2Proof.Machine.execCmdDriverOutputControl s
  | .cmdDataEntryMode => Sys2Proof.Machine.execCmdDataEntryMode s
  | .cmdSetRamXWindow => Sys2Proof.Machine.execCmdSetRamXWindow s
  | .cmdSetRamYWindow => Sys2Proof.Machine.execCmdSetRamYWindow s
  | .cmdBorderWaveform => Sys2Proof.Machine.execCmdBorderWaveform s
  | .cmdTempSensor => Sys2Proof.Machine.execCmdTempSensor s
  | .cmdDisplayUpdateControl1 => Sys2Proof.Machine.execCmdDisplayUpdateControl1 s
  | .cmdSetRamXCounter => Sys2Proof.Machine.execCmdSetRamXCounter s
  | .cmdSetRamYCounter => Sys2Proof.Machine.execCmdSetRamYCounter s
  | .cmdWriteRamBw => Sys2Proof.Machine.execCmdWriteRamBw s
  | .cmdDisplayUpdateControl2 => Sys2Proof.Machine.execCmdDisplayUpdateControl2 s
  | .cmdMasterActivation => Sys2Proof.Machine.execCmdMasterActivation s

end Sys2Proof.Machine
end

