-- ==== Sys2Proof/Machine/Fetch.lean ====
section
/-! DEFINITION. What a step takes next, and which refusal words that are no instruction meet. -/

namespace Sys2Proof.Machine

/-- What a step takes. -/
inductive Fetched where
  /-- There is nothing to do. -/
  | nothing
  /-- A core reset of the state. -/
  | reset (s : State)
  /-- Words to perform, and the state with them taken. -/
  | words (w : Words) (s : State)
  deriving DecidableEq, Repr

/-- The frames the sequencer has still to send: it makes Transport calls only inside an operation, EXEC being 1
(30_encoding.md R84, 10_state.md R13). -/
def State.ownFrames (s : State) : List (List Symbol) := if s.exec then s.frames else []

/-- The next thing to do: an input, which is a request or a core reset; with none pending, the sequencer's own next
frame (notes/assumptions/9.md, 11.md). -/
def fetch (s : State) : Fetched :=
  match s.pending, s.ownFrames with
  | .coreReset :: rest, _        => .reset { s with pending := rest }
  | .request d text gs :: rest, _ => .words (.request d text gs) { s with pending := rest }
  | [], symbols :: rest          => .words (.frame symbols) { s with frames := rest }
  | [], []                       => .nothing

/-- The refusal of words the decoder rejects. A request meets the checks of 60_exceptions.md R170 in their order, so
Halted and OperationInProgress come before its encoding; a frame in Halted is no further transfer (R161). -/
def decodeRefusal (s : State) : DecodeError → Refusal
  | .reservedBits       => s.admission.getD .reservedEncoding
  | .reservedSelector   => s.admission.getD .reservedEncoding
  | .glyphSourceMissing => s.admission.getD .operandSpaceTooShort
  | .textTooShort       => s.admission.getD .operandSpaceTooShort
  | .emptyFrame         => if s.pstate = .halted then .halted else .illFormedFrame
  | .mixedFrame         => if s.pstate = .halted then .halted else .illFormedFrame
  | .frameTooLong       => if s.pstate = .halted then .halted else .illFormedFrame

end Sys2Proof.Machine
end

