-- ==== Sys2Proof/Machine/Step.lean ====
section
/-! DEFINITION. One step: what comes next is taken and performed (00_scope.md R9: one step is one operation run to
completion). With nothing to do EPD-Core waits and nothing changes (70_reset_and_hazards.md R196). -/

namespace Sys2Proof.Machine

/-- One step. A refused request is not taken: a refusal changes no state (60_exceptions.md R170). -/
def step (s : State) : Host.Outcome State Fault Refusal :=
  match fetch s with
  | .nothing   => .next s
  | .reset t   => .next (coreReset t)
  | .words w t =>
    match decode s.cfg w with
    | .ok i    => exec i t
    | .error e => .refused (decodeRefusal s e)

/-- `s` with the words of a table row as what the next step takes (notes/assumptions/9.md, 14.md): a descriptor is the
host's next request; a frame is the sequencer's own next call inside an operation, so EXEC is 1 and no input waits. -/
def State.withFetchWord (s : State) (nbits w : Nat) : State :=
  match tableWords nbits w with
  | .request d text glyphs => { s with pending := .request d text glyphs :: s.pending }
  | .frame symbols         => { s with exec := true, pending := [], frames := symbols :: s.frames }

end Sys2Proof.Machine
end

