-- ==== Sys2Proof/Machine/Trace.lean ====
section
/-! DEFINITION. Reading the wire trace: Transport calls as events, the frame level (10_state.md R31), wire symbols
(30_encoding.md R60) and sums of delays (92_eei_decisions.md D10). Nothing here is run by a step. -/

namespace Sys2Proof.Machine

/-- The four events of one completed Transport call (30_encoding.md R60). -/
def callEvents (cfg : Config) (level : Level) (bytes : List Byte) : List Event :=
  [.dc level, .cs cfg.csActiveLevel, .xfer bytes, .cs cfg.csIdleLevel]

/-- The event of a frame-level trace: a frame `F(d, bytes)`, or an event of the trace itself. -/
inductive FrameEvent where
  | frame (dc : Level) (bytes : List Byte)
  | line (e : Event)
  deriving DecidableEq, Repr

/-- Replace every group `DC(d), CS, XFER(bytes), CS` by its frame. -/
def groupFrames : List Event → List FrameEvent
  | .dc d :: .cs _ :: .xfer bytes :: .cs _ :: es => .frame d bytes :: groupFrames es
  | e :: es                                      => .line e :: groupFrames es
  | []                                           => []

/-- The levels of RST, DC and CS as far as a trace has driven them. -/
structure SeenLevels where
  rst : Option Level
  dc  : Option Level
  cs  : Option Level
  deriving DecidableEq, Repr

/-- Remove the drives of a line to the level it is already known to have, which no pin shows (10_state.md R31). A
frame leaves DC at its level and CS as it was before. -/
def dropRedundant : SeenLevels → List FrameEvent → List FrameEvent
  | _, []                      => []
  | seen, .frame d bytes :: es => .frame d bytes :: dropRedundant { seen with dc := some d } es
  | seen, .line (.rst v) :: es =>
    if seen.rst = some v then dropRedundant seen es
    else .line (.rst v) :: dropRedundant { seen with rst := some v } es
  | seen, .line (.dc v) :: es  =>
    if seen.dc = some v then dropRedundant seen es
    else .line (.dc v) :: dropRedundant { seen with dc := some v } es
  | seen, .line (.cs v) :: es  =>
    if seen.cs = some v then dropRedundant seen es
    else .line (.cs v) :: dropRedundant { seen with cs := some v } es
  | seen, .line e :: es        => .line e :: dropRedundant seen es

/-- The frame level of a trace (10_state.md R31). -/
def frameLevel (es : List Event) : List FrameEvent := dropRedundant ⟨none, none, none⟩ (groupFrames es)

/-- The symbols of a frame, first byte first (30_encoding.md R60). -/
def frameSymbols (dc : Level) (bytes : List Byte) : List Symbol := bytes.map (Symbol.mk dc)

/-- The clock pulses of an event: eight for each byte (10_state.md R30). -/
def Event.clockPulses : Event → Nat
  | .xfer bytes => 8 * bytes.length
  | _           => 0

/-- The requested delay of a trace in milliseconds, a lower bound of the time it takes (70_reset_and_hazards.md
R195). -/
def totalDelay : List Event → Nat
  | []             => 0
  | .delay n :: es => n + totalDelay es
  | _ :: es        => totalDelay es

/-- The command bytes a trace sends: the byte of every transfer made with the select line low. -/
def commandBytes : Option Level → List Event → List Byte
  | _, []                          => []
  | _, .dc v :: es                 => commandBytes (some v) es
  | level, .xfer bytes :: es       =>
    if level = some 0#1 then bytes ++ commandBytes level es else commandBytes level es
  | level, _ :: es                 => commandBytes level es

/-- The select line never changes while chip select is asserted, and bytes go out only while it is asserted
(40_transport.md R91, R95); `sel` says whether it is asserted before the first event. -/
def wellFramed (cfg : Config) : Bool → List Event → Bool
  | _, []                => true
  | _, .cs v :: es       => wellFramed cfg (v == cfg.csActiveLevel) es
  | sel, .dc _ :: es     => !sel && wellFramed cfg sel es
  | sel, .xfer _ :: es   => sel && wellFramed cfg sel es
  | sel, .rst _ :: es    => !sel && wellFramed cfg sel es
  | sel, .delay _ :: es  => !sel && wellFramed cfg sel es
  | sel, .busy _ :: es   => !sel && wellFramed cfg sel es

/-- The level a trace last drove RST to, if it did. -/
def lastRst : List Event → Option Level
  | []           => none
  | .rst v :: es => (lastRst es).or (some v)
  | _ :: es      => lastRst es

/-- The level a trace last drove DC to, if it did. -/
def lastDc : List Event → Option Level
  | []          => none
  | .dc v :: es => (lastDc es).or (some v)
  | _ :: es     => lastDc es

/-- The level a trace last drove CS to, if it did. -/
def lastCs : List Event → Option Level
  | []          => none
  | .cs v :: es => (lastCs es).or (some v)
  | _ :: es     => lastCs es

end Sys2Proof.Machine
end

