-- ==== Sys2Proof/Safety.lean ====
section
/-! DEFINITION. The terms claims are stated in: what a state between operations looks like, the premises on the
environment that claims name, and what the rasterizer's ink is. -/

namespace Sys2Proof.Machine

/-- The flags a warning log gives: exactly those of its records' kinds (10_state.md R20, R21). -/
def flagsOf (log : List Warning) : WFlags := log.foldl WFlags.set WFlags.none

/-- What holds of every state between operations. -/
structure Inv (s : State) : Prop where
  /-- The framebuffer's memory is in canonical form. -/
  fbCanonical : s.fb.wf
  /-- No address outside `FB` was written (20_memory.md R47). -/
  fbInRange : ∀ c ∈ s.fb, c.1 < s.cfg.fbSize
  /-- PSTATE is Uninitialized, Idle or Halted (10_state.md R12). -/
  restState : s.pstate = .uninitialized ∨ s.pstate = .idle ∨ s.pstate = .halted
  /-- EXEC is 1 exactly in Halted (10_state.md R13, 60_exceptions.md R161). -/
  execHalted : s.exec = true ↔ s.pstate = .halted
  /-- A fault is recorded exactly in Halted. -/
  faultHalted : s.busFault.isSome = true ↔ s.pstate = .halted
  /-- In Halted there is no response (60_exceptions.md R161). -/
  noResponse : s.pstate = .halted → s.response = none
  /-- CS is left asserted in Halted and is deselected otherwise (40_transport.md R91). -/
  csRest : s.cs = if s.pstate = .halted then s.cfg.csActiveLevel else s.cfg.csIdleLevel
  /-- The sticky flags are those of the log (10_state.md R20, R21). -/
  flagsExact : s.wflags = flagsOf s.warnlog
  /-- Every line has the level it was last driven to (10_state.md R17). -/
  rstHeld : ∀ v, lastRst s.trace = some v → s.rst = v
  dcHeld : ∀ v, lastDc s.trace = some v → s.dc = v
  csHeld : ∀ v, lastCs s.trace = some v → s.cs = v
  /-- In Idle the panel is out of reset: RST stays 1 after HWRESET (10_state.md R17). -/
  idleReleased : s.pstate = .idle → s.rst = 1#1
  /-- The select line never changes while chip select is asserted (70_reset_and_hazards.md R193). -/
  framed : wellFramed s.cfg false s.trace = true

/-- The six public operations, the only instructions a host can request (30_encoding.md R76, R84). -/
def isPublic : Instr → Bool
  | .initPanel                => true
  | .clear _                  => true
  | .display                  => true
  | .drawText _ _ _ _ _       => true
  | .fillPattern              => true
  | .fillCheckerboard         => true
  | .sendCommand _            => false
  | .sendData _               => false
  | .sendDataBlock _          => false
  | .cmdSwReset               => false
  | .cmdDriverOutputControl   => false
  | .cmdDataEntryMode         => false
  | .cmdSetRamXWindow         => false
  | .cmdSetRamYWindow         => false
  | .cmdBorderWaveform        => false
  | .cmdTempSensor            => false
  | .cmdDisplayUpdateControl1 => false
  | .cmdSetRamXCounter        => false
  | .cmdSetRamYCounter        => false
  | .cmdWriteRamBw            => false
  | .cmdDisplayUpdateControl2 => false
  | .cmdMasterActivation      => false

/-- A request is admitted and the parameters are legal: none of the checks 1, 2 and 6 of 60_exceptions.md R170
applies. -/
def State.ready (s : State) : Prop := s.pstate ≠ .halted ∧ s.exec = false ∧ s.cfg.wf = true

/-- The premise "no link fault" for the next `n` transfers (60_exceptions.md R162). -/
def State.linkClear (s : State) (n : Nat) : Prop := ∀ k, k < n → s.linkAnswer k = 0#1

/-- The panel shows the busy level in each of the next `n` samples. -/
def State.busyFor (s : State) (n : Nat) : Prop := ∀ k, k < n → s.busyAnswer k = s.cfg.busyActiveLevel

/-- The environment after `n` LINKFAULT answers were taken. -/
def Env.takeLinks (e : Env) (n : Nat) : Env :=
  { e with linkAnswers := e.linkAnswers.drop n, linkTaken := e.linkTaken + n }

/-- The environment after `n` BUSY answers were taken. -/
def Env.takeBusys (e : Env) (n : Nat) : Env :=
  { e with busyAnswers := e.busyAnswers.drop n, busyTaken := e.busyTaken + n }

/-- The events of `n` busy samples, each with its delay (41_panel_protocol.md R105). -/
def busyPairs (cfg : Config) (n : Nat) : List Event :=
  (List.replicate n [Event.busy cfg.busyActiveLevel, Event.delay cfg.busyPollIntervalMs]).flatten

/-- An event of a wait: a sample or a delay. -/
def Event.isWait : Event → Bool
  | .busy _  => true
  | .delay _ => true
  | _        => false

/-- An event that carries bytes. -/
def Event.isXfer : Event → Bool
  | .xfer _ => true
  | _       => false

/-- The Transport calls of a panel command other than the payload's. -/
def panelCalls (cfg : Config) (k : PanelCommand) : Nat := 1 + (panelParams cfg k).length

/-- The Transport calls of INITIALIZE: 22 and the five open data groups' bytes, `26 + k` for the default groups and
a trailer of length `k` (41_panel_protocol.md R112). -/
def initCalls (cfg : Config) : Nat :=
  22 + cfg.docTrailer.length + cfg.borderWaveformData.length + cfg.tempSensorData.length + cfg.duc1Data.length

/-- The framebuffer's bytes in address order, `FB[0]` first. -/
def State.payload (s : State) : List Byte := (List.range s.cfg.fbSize).map s.readFb

/-- The logical position `(lx, ly)` is on the canvas (43_rasterizer.md R150). -/
def onCanvas (cfg : Config) (lx ly : Int) : Prop :=
  0 ≤ lx ∧ lx < (cfg.logicalWidth : Int) ∧ 0 ≤ ly ∧ ly < (cfg.logicalHeight : Int)

/-- Some drawn character of the text has ink at the logical position `(lx, ly)`: the cursor of character `k` has
advanced by one cell for each supported character before it (43_rasterizer.md R146, R157). -/
def inkAt (gs : GlyphSource) (text : List Byte) (x y lx ly : Int) : Prop :=
  ∃ k code row col, text[k]? = some code ∧ gs.supports code = true ∧
    row < gs.cellHeight.toNat ∧ col < gs.cellWidth.toNat ∧ gs.bit code row col = true ∧
    lx = x + ((text.take k).countP gs.supports * gs.cellWidth.toNat : Nat) + (col : Int) ∧ ly = y + (row : Int)

/-- The warnings of the characters a glyph source does not support, in text order, the first character having index
`first` (43_rasterizer.md R143). -/
def skipWarnings (gs : GlyphSource) : Nat → List Byte → List Warning
  | _, []            => []
  | k, code :: codes =>
    if gs.supports code then skipWarnings gs (k + 1) codes
    else .glyphSkipped k code :: skipWarnings gs (k + 1) codes

end Sys2Proof.Machine
end

