-- ==== Sys2Proof/Certificates/Slice0/Obligations.lean ====
section
/-! DEFINITION. The statements for the provers. Each docstring names the rule of spec/ it formalises. -/

open Sys2Proof Sys2Proof.Machine

/-! ### Decoding, encoding, the step -/

/-- Eleven words written out from 30_encoding.md R60, R66, R76, R77 and 95_test_vectors.md V20, V24, V37, V50, V51 decode
to what they stand for, and two reserved encodings (R80) to nothing. MODEL'S CHOICES: that the symbols 0x012 and 0x024 are
read as the panel commands, and not as the SENDCOMMAND that V50 also calls 0x012, is notes/assumptions/13.md; how
`decodeTableWord` lays a table row's bits out as words is notes/assumptions/14.md. -/
def Obligations.TableWordsDecode : Prop :=
  decodeTableWord 64 0x0000000000000000 = some .initPanel ∧
  decodeTableWord 64 0x105A000000000000 = some (.clear 0x5A#8) ∧
  decodeTableWord 64 0x2000000000000000 = some .display ∧
  decodeTableWord 64 0x4800FFFF12345678 = some .fillPattern ∧
  decodeTableWord 64 0x4100000000000000 = none ∧
  decodeTableWord 64 0x5000000000000000 = some .fillCheckerboard ∧
  decodeTableWord 64 0x6000000000000000 = none ∧
  decode Config.default (.request 0x3000000A00280002#64 [0x41#8, 0x42#8] none)
    = .ok (.drawText 10 40 [0x41#8, 0x42#8] none 0x00#8) ∧
  decodeTableWord 16 0x012 = some .cmdSwReset ∧
  decodeTableWord 16 0x024 = some .cmdWriteRamBw ∧
  decodeTableWord 16 0x0AB = some (.sendCommand 0xAB#8) ∧
  decodeTableWord 16 0x1F7 = some (.sendData 0xF7#8) ∧
  decode Config.default (.frame [0x1FF#9, 0x100#9]) = .ok (.sendDataBlock [0xFF#8, 0x00#8])

/-- Decoding what a well-formed instruction encodes to gives it back, under every configuration: no bit of any
operand is dropped (30_encoding.md R60, R66, R77, R78). -/
def Obligations.DecodeEncodeRoundTrip : Prop :=
  ∀ (cfg : Config) (i : Instr), i.wf cfg = true → decode cfg (encode cfg i) = .ok i

/-- The instructions whose words have two spellings, which well-formedness leaves to one of them: a SENDCOMMAND of a
panel command's byte reads as that command, and a block of one byte as SENDDATA (30_encoding.md R60). The choice is
the model's, notes/assumptions/13.md. -/
def Obligations.SharedWordsDecode : Prop :=
  (∀ (cfg : Config) (k : PanelCommand), cfg.codesDistinct →
    decode cfg (encode cfg (.sendCommand (cfg.code k))) = .ok k.instr) ∧
  (∀ (cfg : Config) (d : Byte), decode cfg (encode cfg (.sendDataBlock [d])) = .ok (.sendData d))

/-- Whatever the decoder reads is well formed: its operands are in the ranges that 30_encoding.md R78 and 40_transport.md
R91 give, COORD_BITS and TEXT_LEN_BITS being what the configuration says (notes/assumptions/1.md). That well-formedness leaves a SENDCOMMAND of one of the thirteen bytes and a block of one byte to their other
spelling is the model's choice, notes/assumptions/13.md. -/
def Obligations.DecodedInstrWellFormed : Prop :=
  ∀ (cfg : Config) (w : Words) (i : Instr), decode cfg w = .ok i → i.wf cfg = true

/-- Encoding the instruction a frame decodes to gives that frame back (30_encoding.md R60), so no bit of a frame is
dropped. Which of two rows with the same frame is read is the model's choice, notes/assumptions/13.md. -/
def Obligations.FrameEncodesBack : Prop :=
  ∀ (cfg : Config) (symbols : List Symbol) (i : Instr),
    decode cfg (.frame symbols) = .ok i → encode cfg i = .frame symbols

/-- 30_encoding.md R78, COORD_BITS and TEXT_LEN_BITS being 16 as it says: `fill` and `color` are bits 55:48, `x` and `y`
are bits 47:32 and 31:16 sign-extended, `len` is bits 15:0, `g` is bit 59; nothing is scaled or shifted. -/
def Obligations.OperandAssembly : Prop :=
  ∀ (cfg : Config) (d : Descriptor) (text : List Byte) (gs : GlyphSource),
    cfg.coordBits = 16 → cfg.textLenBits = 16 → d.toNat / 2 ^ 56 % 8 = 0 → d.toNat % 65536 ≤ text.length →
    (d.toNat / 2 ^ 60 = 1 →
      ∃ fill, decode cfg (.request d text (some gs)) = .ok (.clear fill) ∧ fill.toNat = d.toNat / 2 ^ 48 % 256) ∧
    (d.toNat / 2 ^ 60 = 3 →
      ∃ x y color, decode cfg (.request d text (some gs)) =
          .ok (.drawText x y (text.take (d.toNat % 65536)) (if d.toNat / 2 ^ 59 % 2 = 1 then some gs else none) color) ∧
        color.toNat = d.toNat / 2 ^ 48 % 256 ∧
        x = (let v : Nat := d.toNat / 2 ^ 32 % 65536; if v < 32768 then (v : Int) else (v : Int) - 65536) ∧
        y = (let v : Nat := d.toNat / 2 ^ 16 % 65536; if v < 32768 then (v : Int) else (v : Int) - 65536))

/-- DRAWTEXT's operands under every legal configuration: `x` and `y` are the low COORD_BITS bits of their fields, two's
complement, and the text is as long as the low TEXT_LEN_BITS bits of `len` say. 00_scope.md R5 makes the two widths
parameters; what a width other than the 16 of 30_encoding.md R78 means is the model's choice, notes/assumptions/1.md. -/
def Obligations.OperandWidths : Prop :=
  ∀ (cfg : Config) (d : Descriptor) (text : List Byte) (gs : GlyphSource), cfg.wf = true →
    d.toNat / 2 ^ 56 % 8 = 0 → d.toNat / 2 ^ 60 = 3 → d.toNat % 2 ^ cfg.textLenBits ≤ text.length →
    ∃ x y color, decode cfg (.request d text (some gs)) =
        .ok (.drawText x y (text.take (d.toNat % 2 ^ cfg.textLenBits))
          (if d.toNat / 2 ^ 59 % 2 = 1 then some gs else none) color) ∧
      x = (let v : Nat := d.toNat / 2 ^ 32 % 2 ^ cfg.coordBits
           if 2 * v < 2 ^ cfg.coordBits then (v : Int) else (v : Int) - 2 ^ cfg.coordBits) ∧
      y = (let v : Nat := d.toNat / 2 ^ 16 % 2 ^ cfg.coordBits
           if 2 * v < 2 ^ cfg.coordBits then (v : Int) else (v : Int) - 2 ^ cfg.coordBits)

/-- 30_encoding.md R81: fields an operation does not use are ignored, and any value of them is accepted. -/
def Obligations.UnusedFieldsIgnored : Prop :=
  ∀ (cfg : Config) (d : Descriptor) (text : List Byte) (glyphs : Option GlyphSource), d.reserved = 0#3 →
    (d.op = 0#4 → decode cfg (.request d text glyphs) = .ok .initPanel) ∧
    (d.op = 1#4 → decode cfg (.request d text glyphs) = .ok (.clear d.arg8)) ∧
    (d.op = 2#4 → decode cfg (.request d text glyphs) = .ok .display) ∧
    (d.op = 4#4 → decode cfg (.request d text glyphs) = .ok .fillPattern) ∧
    (d.op = 5#4 → decode cfg (.request d text glyphs) = .ok .fillCheckerboard)

/-- A step performs the instruction its next words decode to, with those words taken (00_scope.md R9): the next
request's, and, with no input pending, those of the next frame the sequencer has still to send inside an operation. That
requests come from the list `pending` is the model's choice, notes/assumptions/9.md; that a frame is a step of its own,
taken from the list `frames`, is too, notes/assumptions/11.md: 30_encoding.md R84 says that no host can request one. -/
def Obligations.StepRunsDecodedInstruction : Prop :=
  (∀ (s : State) (d : Descriptor) (text : List Byte) (glyphs : Option GlyphSource) (rest : List Input) (i : Instr),
    s.pending = .request d text glyphs :: rest → decode s.cfg (.request d text glyphs) = .ok i →
    step s = exec i { s with pending := rest }) ∧
  (∀ (s : State) (symbols : List Symbol) (rest : List (List Symbol)) (i : Instr),
    s.pending = [] → s.exec = true → s.frames = symbols :: rest → decode s.cfg (.frame symbols) = .ok i →
    step s = exec i { s with frames := rest })

/-- With no input pending and no frame of its own to send inside an operation EPD-Core waits: a step changes nothing
(70_reset_and_hazards.md R182, R196; the two lists are the model's, notes/assumptions/9.md, 11.md). -/
def Obligations.StepWaitsForInput : Prop :=
  ∀ s : State, s.pending = [] → (s.exec = false ∨ s.frames = []) → step s = .next s

/-- 30_encoding.md R76 and R84: whatever descriptor a host sends, it is read as one of the six public operations or
rejected; and from a state in which the sequencer has no frame of its own left, as it has none after reset, a step takes
a public operation, a core reset or nothing, and leaves such a state. So no run of requests performs an internal sequence
by itself; the list `frames` is the model's, notes/assumptions/11.md. -/
def Obligations.InternalSequencesNotRequestable : Prop :=
  State.reset.frames = [] ∧
  (∀ (cfg : Config) (d : Descriptor) (text : List Byte) (glyphs : Option GlyphSource) (i : Instr),
    decode cfg (.request d text glyphs) = .ok i → isPublic i = true) ∧
  (∀ s t : State, s.frames = [] → step s = .next t →
    t.frames = [] ∧
    (t = s ∨ (∃ rest, s.pending = .coreReset :: rest) ∨
      ∃ d text glyphs rest i, s.pending = .request d text glyphs :: rest ∧ isPublic i = true ∧
        exec i { s with pending := rest } = .next t))

/-! ### Reset -/

/-- The values 10_state.md R35 and 70_reset_and_hazards.md R180 state for core reset; FB, DC and RST are free values.
What the parameters are is the default of R5. -/
def Obligations.ResetValues : Prop :=
  State.reset.pstate = .uninitialized ∧ State.reset.exec = false ∧ State.reset.cs = 1#1 ∧
  State.reset.wflags = ⟨false, false, false⟩ ∧ State.reset.warnlog = [] ∧ State.reset.trace = [] ∧
  (∀ a, State.reset.readFb a = Config.freeFb 0 a) ∧
  State.reset.dc = Config.freeDcLevel 0 ∧ State.reset.rst = Config.freeRstLevel 0 ∧
  State.reset.cfg = Config.default

/-- Core reset as an input, from every state, Halted too (70_reset_and_hazards.md R180): the state R35 gives, free
values of its own for FB, DC and RST, nothing emitted. That it comes as an input, what it keeps and the two output
records it empties are the model's choice, notes/assumptions/10.md. -/
def Obligations.CoreResetFromEveryState : Prop :=
  ∀ (s : State) (rest : List Input), s.pending = .coreReset :: rest →
    ∃ t, step s = .next t ∧ t.pstate = .uninitialized ∧ t.exec = false ∧ t.cs = s.cfg.csIdleLevel ∧
      t.wflags = ⟨false, false, false⟩ ∧ t.warnlog = [] ∧ t.trace = [] ∧ t.response = none ∧ t.busFault = none ∧
      (∀ a, t.readFb a = Config.freeFb (s.epoch + 1) a) ∧
      t.dc = Config.freeDcLevel (s.epoch + 1) ∧ t.rst = Config.freeRstLevel (s.epoch + 1) ∧
      t.cfg = s.cfg ∧ t.env = s.env ∧ t.pending = rest ∧ t.frames = []

/-! ### Refusals -/

/-- 60_exceptions.md R171: in Halted every request is refused, whatever its encoding. That a sequence, which no host can
request, is a step of its own and is refused in Halted too is the model's choice, notes/assumptions/11.md, after R161,
by which no further line is driven. -/
def Obligations.HaltedRefusesEverything : Prop :=
  ∀ s : State, s.pstate = .halted →
    (∀ i : Instr, exec i s = .refused .halted) ∧
    (∀ (d : Descriptor) (text : List Byte) (glyphs : Option GlyphSource) (rest : List Input),
      s.pending = .request d text glyphs :: rest → step s = .refused .halted) ∧
    (∀ (symbols : List Symbol) (rest : List (List Symbol)),
      s.pending = [] → s.exec = true → s.frames = symbols :: rest → step s = .refused .halted)

/-- 60_exceptions.md R161: the only way out of Halted is core reset. -/
def Obligations.HaltedLeftOnlyByCoreReset : Prop :=
  ∀ s t : State, s.pstate = .halted → step s = .next t →
    t = s ∨ ∃ rest, s.pending = .coreReset :: rest ∧ t.pstate = .uninitialized

/-- 60_exceptions.md R172: a request made while EXEC is 1 is refused, whatever its encoding. -/
def Obligations.RequestDuringOperationRefused : Prop :=
  ∀ (s : State) (d : Descriptor) (text : List Byte) (glyphs : Option GlyphSource) (rest : List Input),
    s.pstate ≠ .halted → s.exec = true → s.pending = .request d text glyphs :: rest →
    step s = .refused .operationInProgress

/-- 30_encoding.md R80: a reserved selector or a non-zero reserved bit is refused. -/
def Obligations.ReservedEncodingRefused : Prop :=
  ∀ (s : State) (d : Descriptor) (text : List Byte) (glyphs : Option GlyphSource) (rest : List Input),
    s.pstate ≠ .halted → s.exec = false → s.pending = .request d text glyphs :: rest →
    (6 ≤ d.op.toNat ∨ d.reserved ≠ 0#3) → step s = .refused .reservedEncoding

/-- 60_exceptions.md R173: INITIALIZE is accepted only in Uninitialized and DISPLAY only in Idle; the four drawing
operations are accepted in both. -/
def Obligations.AcceptedByState : Prop :=
  ∀ s : State, s.ready →
    (s.pstate ≠ .uninitialized → exec .initPanel s = .refused .wrongState) ∧
    (s.pstate = .uninitialized → ∃ t, exec .initPanel s = .next t) ∧
    (s.pstate ≠ .idle → exec .display s = .refused .wrongState) ∧
    (s.pstate = .idle → ∃ t, exec .display s = .next t) ∧
    (s.pstate = .uninitialized ∨ s.pstate = .idle →
      (∀ fill, ∃ t, exec (.clear fill) s = .next t) ∧
      (∃ t, exec .fillPattern s = .next t) ∧ (∃ t, exec .fillCheckerboard s = .next t) ∧
      (∀ x y text glyphs color, glyphTableCheck glyphs = none →
        ∃ t, exec (.drawText x y text glyphs color) s = .next t))

/-- 10_state.md R28: a DRAWTEXT whose glyph table is shorter than its range needs is refused. -/
def Obligations.ShortGlyphTableRefused : Prop :=
  ∀ (s : State) (x y : Int) (text : List Byte) (gs : GlyphSource) (color : Byte),
    s.pstate ≠ .halted → s.exec = false →
    gs.byteTable.length <
      (gs.lastCode.toNat - gs.firstCode.toNat + 1) * gs.cellHeight.toNat * ((gs.cellWidth.toNat + 7) / 8) →
    exec (.drawText x y text (some gs) color) s = .refused .glyphTableTooShort

/-- 00_scope.md R6: under a configuration outside the bounds every instruction is refused. The bounds on the two
divisors and the refusal of an empty group of 30_encoding.md R67's "1 or more bytes" are the model's,
notes/assumptions/16.md, and so are those on the two operand widths, 1.md. -/
def Obligations.BadConfigurationRefused : Prop :=
  ∀ (s : State) (i : Instr),
    (s.cfg.ramWidth < 8 ∨ s.cfg.ramWidth % 8 ≠ 0 ∨ s.cfg.ramHeight < 1 ∨ 65536 < s.cfg.ramHeight ∨
      255 < s.cfg.ramWidth / 8 - 1 ∨ s.cfg.busyPollMax < 1 ∨ s.cfg.stripePeriod < 1 ∨ s.cfg.checkerBlockRows < 1 ∨
      s.cfg.borderWaveformData = [] ∨ s.cfg.tempSensorData = [] ∨ s.cfg.duc1Data = [] ∨
      s.cfg.coordBits < 1 ∨ 16 < s.cfg.coordBits ∨ s.cfg.textLenBits < 1 ∨ 16 < s.cfg.textLenBits) →
    ∃ r, exec i s = .refused r

/-! ### The framebuffer -/

/-- 20_memory.md R42: pixels and framebuffer bits correspond one to one, with the inverse the rule gives. -/
def Obligations.PixelToBitBijection : Prop :=
  ∀ cfg : Config, cfg.wf = true →
    (∀ ramX ramY, ramX < cfg.ramWidth → ramY < cfg.ramHeight →
      byteIndex cfg ramX ramY < cfg.fbSize ∧ bitNumber ramX < 8 ∧
      byteIndex cfg ramX ramY / cfg.rowStride = ramY ∧
      8 * (byteIndex cfg ramX ramY % cfg.rowStride) + (7 - bitNumber ramX) = ramX) ∧
    (∀ i b, i < cfg.fbSize → b < 8 →
      8 * (i % cfg.rowStride) + (7 - b) < cfg.ramWidth ∧ i / cfg.rowStride < cfg.ramHeight ∧
      byteIndex cfg (8 * (i % cfg.rowStride) + (7 - b)) (i / cfg.rowStride) = i ∧
      bitNumber (8 * (i % cfg.rowStride) + (7 - b)) = b) ∧
    cfg.ramWidth * cfg.ramHeight = 8 * cfg.fbSize

/-- 20_memory.md R45: PixelWrite sets one bit, leaves every other pixel, every other byte and all other state
unchanged, and doing it twice equals doing it once. -/
def Obligations.PixelWriteChangesOneBit : Prop :=
  ∀ (s : State) (ramX ramY : Nat) (v : Bool), s.cfg.wf = true → ramX < s.cfg.ramWidth → ramY < s.cfg.ramHeight →
    let t := pixelWrite ramX ramY v s
    t.pixel ramX ramY = v ∧
    (∀ x y, x < s.cfg.ramWidth → y < s.cfg.ramHeight → (x ≠ ramX ∨ y ≠ ramY) → t.pixel x y = s.pixel x y) ∧
    (∀ a, a ≠ byteIndex s.cfg ramX ramY → t.readFb a = s.readFb a) ∧
    pixelWrite ramX ramY v t = t ∧ t = { s with fb := t.fb }

/-- 42_framebuffer.md R130: CLEAR completes with every byte of FB at `fill`, whatever it held, and nothing else
changed but the scratch register STREAM_IDX and the response, which carries no warning. -/
def Obligations.ClearFillsFramebuffer : Prop :=
  ∀ (s : State) (fill : Byte), s.ready →
    ∃ t, exec (.clear fill) s = .next t ∧
      (∀ i, i < s.cfg.fbSize → t.readFb i = fill) ∧ (∀ i, s.cfg.fbSize ≤ i → t.readFb i = s.readFb i) ∧
      t = { s with fb := t.fb, work := { s.work with streamIdx := t.work.streamIdx },
                   response := some [], ctx := ⟨none, 0⟩ }

/-- 42_framebuffer.md R132: FILLPATTERN makes every RAM row whose number is a multiple of the stripe period black and
every other row white, and changes nothing else. -/
def Obligations.FillPatternStripes : Prop :=
  ∀ s : State, s.ready →
    ∃ t, exec .fillPattern s = .next t ∧
      (∀ r c, r < s.cfg.ramHeight → c < s.cfg.rowStride →
        t.readFb (r * s.cfg.rowStride + c) = if r % s.cfg.stripePeriod = 0 then s.cfg.fillBlack else s.cfg.fillWhite) ∧
      (∀ i, s.cfg.fbSize ≤ i → t.readFb i = s.readFb i) ∧
      t = { s with fb := t.fb, work := { s.work with streamIdx := t.work.streamIdx },
                   response := some [], ctx := ⟨none, 0⟩ }

/-- 42_framebuffer.md R134: FILLCHECKERBOARD gives the byte at `(ram_row, byte_col)` the value the formula gives, and
changes nothing else. -/
def Obligations.FillCheckerboardFormula : Prop :=
  ∀ s : State, s.ready →
    ∃ t, exec .fillCheckerboard s = .next t ∧
      (∀ r c, r < s.cfg.ramHeight → c < s.cfg.rowStride →
        t.readFb (r * s.cfg.rowStride + c) =
          if (r / s.cfg.checkerBlockRows + c) % 2 = 0 then s.cfg.checkerA else s.cfg.checkerB) ∧
      (∀ i, s.cfg.fbSize ≤ i → t.readFb i = s.readFb i) ∧
      t = { s with fb := t.fb, work := { s.work with streamIdx := t.work.streamIdx },
                   response := some [], ctx := ⟨none, 0⟩ }

/-- 10_state.md R14: only CLEAR, FILLPATTERN, FILLCHECKERBOARD and DRAWTEXT write FB. -/
def Obligations.OnlyDrawingWritesFramebuffer : Prop :=
  ∀ (i : Instr) (s t : State), exec i s = .next t →
    (∃ fill, i = .clear fill) ∨ i = .fillPattern ∨ i = .fillCheckerboard ∨
    (∃ x y text glyphs color, i = .drawText x y text glyphs color) ∨ (t.fb = s.fb ∧ t.epoch = s.epoch)

/-! ### The rasterizer -/

/-- 43_rasterizer.md R142: the rotation is a bijection from the canvas onto the RAM, with the inverse the rule
gives. -/
def Obligations.RotationBijection : Prop :=
  ∀ cfg : Config,
    (∀ lx ly, onCanvas cfg lx ly →
      0 ≤ ramXOf cfg ly ∧ ramXOf cfg ly < (cfg.ramWidth : Int) ∧
      0 ≤ ramYOf lx ∧ ramYOf lx < (cfg.ramHeight : Int) ∧
      lx = ramYOf lx ∧ ly = ((cfg.ramWidth : Int) - 1) - ramXOf cfg ly) ∧
    (∀ rx ry : Int, 0 ≤ rx → rx < (cfg.ramWidth : Int) → 0 ≤ ry → ry < (cfg.ramHeight : Int) →
      ∃ lx ly, onCanvas cfg lx ly ∧ ramXOf cfg ly = rx ∧ ramYOf lx = ry) ∧
    (∀ lx ly lx' ly', ramXOf cfg ly = ramXOf cfg ly' → ramYOf lx = ramYOf lx' → lx = lx' ∧ ly = ly')

/-- 43_rasterizer.md R150 with R148 and R149: a pixel is written iff its logical position is on the canvas, white
unless the color is BLACK; otherwise it is dropped silently. -/
def Obligations.PlotWritesIffOnCanvas : Prop :=
  ∀ (s : State) (lx ly : Int) (color : Byte),
    (onCanvas s.cfg lx ly →
      plot lx ly color s =
        pixelWrite (((s.cfg.ramWidth : Int) - 1) - ly).toNat lx.toNat (color != s.cfg.black) s) ∧
    (¬ onCanvas s.cfg lx ly → plot lx ly color s = s)

/-- 43_rasterizer.md R154: without a glyph source DRAWTEXT records one NoGlyphSource warning and completes, and
nothing else changes. -/
def Obligations.DrawTextWithoutGlyphSource : Prop :=
  ∀ (s : State) (x y : Int) (text : List Byte) (color : Byte), s.ready →
    exec (.drawText x y text none color) s =
      .next { s with warnlog := s.warnlog ++ [.noGlyphSource], wflags := { s.wflags with noGlyphSource := true },
                     response := some [.noGlyphSource], ctx := ⟨none, 0⟩ }

/-- 43_rasterizer.md R155: with a glyph source DRAWTEXT always completes and touches only FB, its working registers
and the warning state; it is refused in Halted and while EXEC is 1. -/
def Obligations.DrawTextCompletes : Prop :=
  ∀ (s : State) (x y : Int) (text : List Byte) (gs : GlyphSource) (color : Byte),
    glyphTableCheck (some gs) = none →
    (s.ready →
      ∃ t, exec (.drawText x y text (some gs) color) s = .next t ∧
        (∀ i, s.cfg.fbSize ≤ i → t.readFb i = s.readFb i) ∧
        t = { s with fb := t.fb,
                     work := { s.work with curX := t.work.curX, charIdx := t.work.charIdx,
                                           gRow := t.work.gRow, gCol := t.work.gCol },
                     warnlog := t.warnlog, wflags := t.wflags, response := t.response, ctx := ⟨none, 0⟩ }) ∧
    (s.pstate = .halted → exec (.drawText x y text (some gs) color) s = .refused .halted) ∧
    (s.pstate ≠ .halted → s.exec = true → exec (.drawText x y text (some gs) color) s = .refused .operationInProgress)

/-- 60_exceptions.md R166 and 43_rasterizer.md R143: one GlyphSkipped warning for each unsupported character, in text
order, and no other; they are the response, and the flags follow. -/
def Obligations.DrawTextWarnings : Prop :=
  ∀ (s t : State) (x y : Int) (text : List Byte) (gs : GlyphSource) (color : Byte),
    exec (.drawText x y text (some gs) color) s = .next t →
    t.response = some (skipWarnings gs 0 text) ∧ t.warnlog = s.warnlog ++ skipWarnings gs 0 text ∧
    t.wflags = { s.wflags with glyphSkipped := s.wflags.glyphSkipped || text.any (fun c => !gs.supports c) }

/-- 43_rasterizer.md R146: the cursor advances by one cell width for each drawn character and for no skipped one. -/
def Obligations.CursorAdvance : Prop :=
  ∀ (s t : State) (x y : Int) (text : List Byte) (gs : GlyphSource) (color : Byte),
    exec (.drawText x y text (some gs) color) s = .next t →
    t.work.curX = x + ((text.countP gs.supports * gs.cellWidth.toNat : Nat) : Int)

/-- 43_rasterizer.md R157: after DRAWTEXT a RAM pixel has the color's value exactly where a drawn glyph has ink, and
its old value everywhere else: unset bits are never written, pixels off the canvas are dropped, and no padding bit is
looked at. -/
def Obligations.DrawTextInk : Prop :=
  ∀ (s t : State) (x y : Int) (text : List Byte) (gs : GlyphSource) (color : Byte),
    exec (.drawText x y text (some gs) color) s = .next t →
    ∀ rx ry, rx < s.cfg.ramWidth → ry < s.cfg.ramHeight →
      (inkAt gs text x y (ry : Int) (((s.cfg.ramWidth : Int) - 1) - rx) →
        t.pixel rx ry = (color != s.cfg.black)) ∧
      (¬ inkAt gs text x y (ry : Int) (((s.cfg.ramWidth : Int) - 1) - rx) →
        t.pixel rx ry = s.pixel rx ry)

/-- 95_test_vectors.md S5, 43_rasterizer.md R143 and R146: a string with an unsupported character leaves the canvas
and the cursor exactly as the string without it does. -/
def Obligations.SkippedCharacterLeavesCanvas : Prop :=
  ∀ (s t u : State) (x y : Int) (before after : List Byte) (code : Byte) (gs : GlyphSource) (color : Byte),
    gs.supports code = false →
    exec (.drawText x y (before ++ code :: after) (some gs) color) s = .next t →
    exec (.drawText x y (before ++ after) (some gs) color) s = .next u →
    t.fb = u.fb ∧ t.work.curX = u.work.curX

/-! ### Transport -/

/-- 40_transport.md R92: SENDCOMMAND drives DC low, frames one byte with chip select, and leaves DC low. That the
sequence is stepped by itself is the model's choice, notes/assumptions/11.md. -/
def Obligations.SendCommandFrame : Prop :=
  ∀ (s : State) (c : Byte), s.pstate ≠ .halted → s.cfg.wf = true → s.linkClear 1 →
    ∃ t, exec (.sendCommand c) s = .next t ∧
      t.trace = s.trace ++ [.dc 0#1, .cs s.cfg.csActiveLevel, .xfer [c], .cs s.cfg.csIdleLevel] ∧
      t = { s with dc := 0#1, cs := s.cfg.csIdleLevel, traceRev := t.traceRev, env := s.env.takeLinks 1,
                   ctx := { s.ctx with calls := s.ctx.calls + 1 } }

/-- 40_transport.md R93: SENDDATA drives DC high, frames one byte with chip select, and leaves DC high. That the
sequence is stepped by itself is the model's choice, notes/assumptions/11.md. -/
def Obligations.SendDataFrame : Prop :=
  ∀ (s : State) (d : Byte), s.pstate ≠ .halted → s.cfg.wf = true → s.linkClear 1 →
    ∃ t, exec (.sendData d) s = .next t ∧
      t.trace = s.trace ++ [.dc 1#1, .cs s.cfg.csActiveLevel, .xfer [d], .cs s.cfg.csIdleLevel] ∧
      t = { s with dc := 1#1, cs := s.cfg.csIdleLevel, traceRev := t.traceRev, env := s.env.takeLinks 1,
                   ctx := { s.ctx with calls := s.ctx.calls + 1 } }

/-- 40_transport.md R94 and R91: SENDDATABLOCK sends 1 to FB_SIZE bytes in one transfer under one chip-select pulse;
a block of another length has no meaning and is refused. That the sequence is stepped by itself is the model's choice,
notes/assumptions/11.md, and so is the refusal, 15.md. -/
def Obligations.SendDataBlockFrame : Prop :=
  ∀ (s : State) (bytes : List Byte), s.pstate ≠ .halted → s.cfg.wf = true →
    (1 ≤ bytes.length → bytes.length ≤ s.cfg.fbSize → s.linkClear 1 →
      ∃ t, exec (.sendDataBlock bytes) s = .next t ∧
        t.trace = s.trace ++ [.dc 1#1, .cs s.cfg.csActiveLevel, .xfer bytes, .cs s.cfg.csIdleLevel] ∧
        t = { s with dc := 1#1, cs := s.cfg.csIdleLevel, traceRev := t.traceRev, env := s.env.takeLinks 1,
                     work := { s.work with streamIdx := t.work.streamIdx },
                     ctx := { s.ctx with calls := s.ctx.calls + 1 } }) ∧
    (bytes.length = 0 ∨ s.cfg.fbSize < bytes.length → exec (.sendDataBlock bytes) s = .refused .blockLength)

/-- 60_exceptions.md R161 with 40_transport.md R91, 95_test_vectors.md V53: a Transport call for which the link layer
reports a failure leaves the select line driven and chip select asserted, sends no byte, and halts; EXEC stays as it is,
1 inside an operation. MODEL'S CHOICES: that the three calls are stepped by themselves, in states with EXEC 0 too and with
an earlier operation's response left as it is (notes/assumptions/11.md); and the record of the site, its form and, for a
call stepped by itself, its index (notes/assumptions/8.md). -/
def Obligations.TransportCallFaults : Prop :=
  ∀ (s : State) (b : Byte) (bytes : List Byte), s.pstate ≠ .halted → s.cfg.wf = true → s.linkAnswer 0 = 1#1 →
    1 ≤ bytes.length → bytes.length ≤ s.cfg.fbSize →
    let after (level : Level) (call : TransportCall) (t : State) : Prop :=
      t.trace = s.trace ++ [.dc level, .cs s.cfg.csActiveLevel] ∧
      t = { s with pstate := .halted, dc := level, cs := s.cfg.csActiveLevel, traceRev := t.traceRev,
                   busFault := some ⟨s.ctx.operation, s.ctx.calls, call⟩,
                   work := { s.work with streamIdx := t.work.streamIdx }, env := s.env.takeLinks 1 }
    (∃ t, exec (.sendCommand b) s = .next t ∧ after 0#1 .sendCommand t ∧ t.work = s.work) ∧
    (∃ t, exec (.sendData b) s = .next t ∧ after 1#1 .sendData t ∧ t.work = s.work) ∧
    (∃ t, exec (.sendDataBlock bytes) s = .next t ∧ after 1#1 .sendDataBlock t)

/-! ### Panel commands -/

/-- 30_encoding.md R70: a 16-bit parameter is its low byte, then its high byte. -/
def Obligations.LittleEndianParameter : Prop :=
  (∀ v, v < 65536 → ∃ lo hi : Byte, le16 v = [lo, hi] ∧ lo.toNat = v % 256 ∧ hi.toNat = v / 256) ∧
  le16 295 = [0x27#8, 0x01#8] ∧ le16 0 = [0x00#8, 0x00#8]

/-- 30_encoding.md R68: what every command is followed by, in wire order, under every configuration: for twelve of the
thirteen these parameter bytes, each a DAT frame of its own, and for CMD_WRITE_RAM_BW the framebuffer as one block; and
the bytes of the three geometry commands with the default parameters, whose values are the spec's own presumptions
(notes/assumptions/2.md). -/
def Obligations.PanelParameterLayout : Prop :=
  (∀ cfg : Config,
    let h := cfg.ramHeight - 1
    panelParams cfg .swReset = [] ∧
    panelParams cfg .driverOutputControl = [lo8 h, hi8 h] ++ cfg.docTrailer ∧
    panelParams cfg .dataEntryMode = [cfg.dataEntryModeValue] ∧
    panelParams cfg .setRamXWindow = [0x00#8, lo8 (cfg.ramWidth / 8 - 1)] ∧
    panelParams cfg .setRamYWindow = [lo8 0, hi8 0, lo8 h, hi8 h] ∧
    panelParams cfg .borderWaveform = cfg.borderWaveformData ∧
    panelParams cfg .tempSensor = cfg.tempSensorData ∧
    panelParams cfg .displayUpdateControl1 = cfg.duc1Data ∧
    panelParams cfg .setRamXCounter = [0x00#8] ∧
    panelParams cfg .setRamYCounter = [lo8 0, hi8 0] ∧
    panelParams cfg .displayUpdateControl2 = [cfg.updateModeFull] ∧
    panelParams cfg .masterActivation = [] ∧
    (∀ k, k ≠ .writeRamBw → panelActs cfg k = .sendCommand (cfg.code k) :: (panelParams cfg k).map .sendData) ∧
    panelActs cfg .writeRamBw = [.sendCommand cfg.cmd.writeRamBw, .sendFramebuffer]) ∧
  panelParams Config.default .driverOutputControl = [0x27#8, 0x01#8, 0x00#8] ∧
  panelParams Config.default .setRamXWindow = [0x00#8, 0x0F#8] ∧
  panelParams Config.default .setRamYWindow = [0x00#8, 0x00#8, 0x27#8, 0x01#8]

/-- 30_encoding.md R61 and R68: each of CMD_SW_RESET, CMD_DRIVER_OUTPUT_CONTROL, CMD_DATA_ENTRY_MODE,
CMD_SET_RAM_X_WINDOW, CMD_SET_RAM_Y_WINDOW, CMD_BORDER_WAVEFORM, CMD_TEMP_SENSOR, CMD_DISPLAY_UPDATE_CONTROL_1,
CMD_SET_RAM_X_COUNTER, CMD_SET_RAM_Y_COUNTER, CMD_DISPLAY_UPDATE_CONTROL_2 and CMD_MASTER_ACTIVATION completes with its
CMD frame and then one DAT frame for each parameter byte, and changes nothing but the lines, TRACE and what the link
layer was asked. That a panel command is stepped with its parameters is the model's reading,
notes/assumptions/12.md, and that it is stepped by itself the model's choice, 11.md. -/
def Obligations.PanelCommandsSendParameters : Prop :=
  ∀ (s : State) (k : PanelCommand), k ≠ .writeRamBw → s.pstate ≠ .halted → s.cfg.wf = true →
    s.linkClear (panelCalls s.cfg k) →
    ∃ t, exec k.instr s = .next t ∧
      t.trace = s.trace ++ callEvents s.cfg 0#1 [s.cfg.code k] ++
        (panelParams s.cfg k).flatMap (fun p => callEvents s.cfg 1#1 [p]) ∧
      t = { s with dc := if panelParams s.cfg k = [] then 0#1 else 1#1, cs := s.cfg.csIdleLevel,
                   traceRev := t.traceRev, env := s.env.takeLinks (panelCalls s.cfg k),
                   ctx := { s.ctx with calls := s.ctx.calls + panelCalls s.cfg k } }

/-- 30_encoding.md R68: CMD_WRITE_RAM_BW completes with its CMD frame and the whole framebuffer as one BLK frame,
`FB[0]` first, and leaves FB unchanged. That the command is stepped with its payload is the model's reading, DEDUCED in
notes/assumptions/12.md, and that it is stepped by itself the model's choice, 11.md. -/
def Obligations.WriteRamSendsFramebuffer : Prop :=
  ∀ s : State, s.pstate ≠ .halted → s.cfg.wf = true → s.fb.wf → s.linkClear 2 →
    ∃ t, exec .cmdWriteRamBw s = .next t ∧
      t.trace = s.trace ++ callEvents s.cfg 0#1 [s.cfg.cmd.writeRamBw] ++ callEvents s.cfg 1#1 s.payload ∧
      t = { s with dc := 1#1, cs := s.cfg.csIdleLevel, traceRev := t.traceRev, env := s.env.takeLinks 2,
                   work := { s.work with streamIdx := t.work.streamIdx },
                   ctx := { s.ctx with calls := s.ctx.calls + 2 } }

/-! ### Panel protocol -/

/-- 41_panel_protocol.md R100: HWRESET is six events and leaves RST at 1; no other line and no other state but the
delay timer changes. -/
def Obligations.HwResetPulse : Prop :=
  ∀ s : State,
    (hwReset s).trace = s.trace ++ [.rst 1#1, .delay s.cfg.tResetSettleMs, .rst 0#1, .delay s.cfg.tResetLowMs,
      .rst 1#1, .delay s.cfg.tResetReleaseMs] ∧
    hwReset s = { s with rst := 1#1, traceRev := (hwReset s).traceRev,
                         work := { s.work with delayTmr := (hwReset s).work.delayTmr } }

/-- 41_panel_protocol.md R104 and R105: WAITBUSY returns at the first sample that is not busy, with no warning and
one delay for each busy sample before it; after BUSY_POLL_MAX busy samples it returns with one BusyTimeout warning.
It changes nothing else. -/
def Obligations.WaitBusyBounded : Prop :=
  ∀ (s : State) (site : WaitSite),
    (∀ k, k < s.cfg.busyPollMax → s.busyFor k → s.busyAnswer k ≠ s.cfg.busyActiveLevel →
      let t := waitBusy site s
      t.trace = s.trace ++ busyPairs s.cfg k ++ [.busy (s.busyAnswer k)] ∧ t.work.pollCnt = k + 1 ∧
      t = { s with traceRev := t.traceRev, env := s.env.takeBusys (k + 1),
                   work := { s.work with pollCnt := t.work.pollCnt, delayTmr := t.work.delayTmr } }) ∧
    (s.busyFor s.cfg.busyPollMax →
      let t := waitBusy site s
      t.trace = s.trace ++ busyPairs s.cfg s.cfg.busyPollMax ∧ t.work.pollCnt = s.cfg.busyPollMax ∧
      t = { s with traceRev := t.traceRev, env := s.env.takeBusys s.cfg.busyPollMax,
                   work := { s.work with pollCnt := t.work.pollCnt, delayTmr := t.work.delayTmr },
                   warnlog := s.warnlog ++ [.busyTimeout site], wflags := { s.wflags with busyTimeout := true } })

/-- 41_panel_protocol.md R110 and R112: from Uninitialized, when the link layer reports no failure, INITIALIZE
completes in Idle whatever the panel answers; it does not touch FB, leaves RST and DC at 1 and chip select
deselected, makes exactly the transfers R112 counts, and raises at most its three timeouts, in order. -/
def Obligations.InitializeCompletes : Prop :=
  ∀ s : State, s.pstate = .uninitialized → s.exec = false → s.cfg.wf = true → s.linkClear (initCalls s.cfg) →
    ∃ t es warnings, exec .initPanel s = .next t ∧
      t.trace = s.trace ++ es ∧ es.countP Event.isXfer = initCalls s.cfg ∧
      totalDelay es ≤ s.cfg.tResetSettleMs + s.cfg.tResetLowMs + s.cfg.tResetReleaseMs +
        3 * (s.cfg.busyPollMax * s.cfg.busyPollIntervalMs) ∧
      warnings.Sublist [.busyTimeout .afterHwReset, .busyTimeout .afterSwReset, .busyTimeout .afterConfig] ∧
      t.warnlog = s.warnlog ++ warnings ∧ t.response = some warnings ∧
      t = { s with pstate := .idle, rst := 1#1, dc := 1#1, cs := s.cfg.csIdleLevel, traceRev := t.traceRev,
                   warnlog := t.warnlog, wflags := t.wflags, response := t.response,
                   work := { s.work with pollCnt := t.work.pollCnt, delayTmr := t.work.delayTmr },
                   env := { s.env.takeLinks (initCalls s.cfg) with
                              busyAnswers := t.env.busyAnswers, busyTaken := t.env.busyTaken },
                   ctx := ⟨none, 0⟩ }

/-- 41_panel_protocol.md R111: with the default parameters and a panel never seen busy, INITIALIZE produces exactly
this trace at the frame level. -/
def Obligations.InitializeFrameTrace : Prop :=
  ∀ s : State, s.cfg = Config.default → s.pstate = .uninitialized → s.exec = false → s.linkClear 27 →
    (∀ k, k < 3 → s.busyAnswer k = 0#1) →
    ∃ t es, exec .initPanel s = .next t ∧ t.trace = s.trace ++ es ∧ frameLevel es =
      [.line (.rst 1#1), .line (.delay 200), .line (.rst 0#1), .line (.delay 10), .line (.rst 1#1), .line (.delay 200),
       .line (.busy 0#1),
       .frame 0#1 [0x12#8],
       .line (.busy 0#1),
       .frame 0#1 [0x01#8], .frame 1#1 [0x27#8], .frame 1#1 [0x01#8], .frame 1#1 [0x00#8],
       .frame 0#1 [0x11#8], .frame 1#1 [0x03#8],
       .frame 0#1 [0x44#8], .frame 1#1 [0x00#8], .frame 1#1 [0x0F#8],
       .frame 0#1 [0x45#8], .frame 1#1 [0x00#8], .frame 1#1 [0x00#8], .frame 1#1 [0x27#8], .frame 1#1 [0x01#8],
       .frame 0#1 [0x3C#8], .frame 1#1 [0x05#8],
       .frame 0#1 [0x18#8], .frame 1#1 [0x80#8],
       .frame 0#1 [0x21#8], .frame 1#1 [0x00#8], .frame 1#1 [0x80#8],
       .frame 0#1 [0x4E#8], .frame 1#1 [0x00#8],
       .frame 0#1 [0x4F#8], .frame 1#1 [0x00#8], .frame 1#1 [0x00#8],
       .line (.busy 0#1)]

/-- 41_panel_protocol.md R115 and R117, 95_test_vectors.md S6: from Idle, when the link layer reports no failure,
DISPLAY completes in Idle whatever the panel answers, after at most BUSY_POLL_MAX delays of the poll interval; it
changes no byte of FB, sends ten frames, and raises at most the one timeout. -/
def Obligations.DisplayCompletes : Prop :=
  ∀ s : State, s.pstate = .idle → s.exec = false → s.cfg.wf = true → s.linkClear 10 →
    ∃ t es waits warnings, exec .display s = .next t ∧
      t.trace = s.trace ++ es ++ waits ∧ es.countP Event.isXfer = 10 ∧ es.any Event.isWait = false ∧
      waits.all Event.isWait = true ∧ totalDelay waits ≤ s.cfg.busyPollMax * s.cfg.busyPollIntervalMs ∧
      (warnings = [] ∨ warnings = [.busyTimeout .afterActivation]) ∧
      t.warnlog = s.warnlog ++ warnings ∧ t.response = some warnings ∧
      t = { s with dc := 0#1, cs := s.cfg.csIdleLevel, traceRev := t.traceRev,
                   warnlog := t.warnlog, wflags := t.wflags, response := t.response,
                   work := { s.work with pollCnt := t.work.pollCnt, delayTmr := t.work.delayTmr,
                                         streamIdx := t.work.streamIdx },
                   env := { s.env.takeLinks 10 with
                              busyAnswers := t.env.busyAnswers, busyTaken := t.env.busyTaken },
                   ctx := ⟨none, 0⟩ }

/-- 41_panel_protocol.md R116: with a panel that releases busy at the first sample, DISPLAY produces exactly this
frame-level trace: the counters, the framebuffer's bytes in row-major order, the full-refresh mode byte, the
activation with no further data, one sample. -/
def Obligations.DisplayFrameTrace : Prop :=
  ∀ s : State, s.pstate = .idle → s.exec = false → s.cfg.wf = true → s.fb.wf → s.linkClear 10 →
    s.busyAnswer 0 ≠ s.cfg.busyActiveLevel →
    ∃ t es, exec .display s = .next t ∧ t.trace = s.trace ++ es ∧ frameLevel es =
      [.frame 0#1 [s.cfg.cmd.setRamXCounter], .frame 1#1 [0x00#8],
       .frame 0#1 [s.cfg.cmd.setRamYCounter], .frame 1#1 [0x00#8], .frame 1#1 [0x00#8],
       .frame 0#1 [s.cfg.cmd.writeRamBw], .frame 1#1 s.payload,
       .frame 0#1 [s.cfg.cmd.displayUpdateControl2], .frame 1#1 [s.cfg.updateModeFull],
       .frame 0#1 [s.cfg.cmd.masterActivation],
       .line (.busy (s.busyAnswer 0))]

/-- 60_exceptions.md R161: when the link layer reports a failure at the `j`-th Transport call of INITIALIZE or
DISPLAY, the operation stops there: Halted, EXEC 1, no response, chip select left asserted, exactly `j` transfers made,
nothing done before undone, FB unchanged, the site recorded in the model's form (notes/assumptions/8.md). -/
def Obligations.BusFaultAbortsOperation : Prop :=
  ∀ (s : State) (j : Nat) (i : Instr) (op : Operation), s.exec = false → s.cfg.wf = true →
    ((i = .initPanel ∧ op = .initPanel ∧ s.pstate = .uninitialized ∧ j < initCalls s.cfg) ∨
     (i = .display ∧ op = .display ∧ s.pstate = .idle ∧ j < 10)) →
    s.linkClear j → s.linkAnswer j = 1#1 →
    ∃ t es level call, exec i s = .next t ∧ t.pstate = .halted ∧ t.exec = true ∧ t.response = none ∧
      t.cs = s.cfg.csActiveLevel ∧ t.dc = level ∧
      t.trace = s.trace ++ es ++ [.dc level, .cs s.cfg.csActiveLevel] ∧ es.countP Event.isXfer = j ∧
      (∃ warnings, t.warnlog = s.warnlog ++ warnings) ∧ t.fb = s.fb ∧ t.epoch = s.epoch ∧
      t.busFault = some ⟨some op, j, call⟩

/-! ### The whole machine -/

/-- The invariant of the states between operations holds after reset. -/
def Obligations.ResetKeepsInvariant : Prop := Inv State.reset

/-- Every step keeps the invariant: the framebuffer canonical and inside its bounds, PSTATE one of Uninitialized, Idle
and Halted, EXEC, chip select, response and fault record as PSTATE says, every line at its last driven level, the
flags those of the log, the select line stable under chip select. -/
def Obligations.StepPreservesInvariant : Prop :=
  ∀ s t : State, Inv s → step s = .next t → Inv t

/-- 41_panel_protocol.md R108 and R118, 10_state.md R12: what an instruction can do to PSTATE, and that none enters
DeepSleep. The fourth case is not in R108's table: that a sequence is stepped by itself, in whatever PSTATE, and then ends
in Halted by a bus fault (60_exceptions.md R161) is the model's choice, notes/assumptions/11.md. -/
def Obligations.ProtocolTransitions : Prop :=
  ∀ (i : Instr) (s t : State), exec i s = .next t →
    t.pstate = s.pstate ∨
    (i = .initPanel ∧ s.pstate = .uninitialized ∧ (t.pstate = .idle ∨ t.pstate = .halted)) ∨
    (i = .display ∧ s.pstate = .idle ∧ t.pstate = .halted) ∨
    (t.pstate = .halted ∧
      ((∃ c, i = .sendCommand c) ∨ (∃ d, i = .sendData d) ∨ (∃ bytes, i = .sendDataBlock bytes) ∨
        ∃ k : PanelCommand, i = k.instr))

/-- 10_state.md R20, R21 and R30: TRACE and WARNLOG only grow, a flag once set stays set; and no instruction changes
the parameters, the inputs still to come or the sequencer's own frames. -/
def Obligations.LogsOnlyGrow : Prop :=
  ∀ (i : Instr) (s t : State), exec i s = .next t →
    s.trace <+: t.trace ∧ s.warnlog <+: t.warnlog ∧
    (s.wflags.busyTimeout = true → t.wflags.busyTimeout = true) ∧
    (s.wflags.glyphSkipped = true → t.wflags.glyphSkipped = true) ∧
    (s.wflags.noGlyphSource = true → t.wflags.noGlyphSource = true) ∧
    t.cfg = s.cfg ∧ t.pending = s.pending ∧ t.frames = s.frames ∧ t.epoch = s.epoch

/-- 30_encoding.md R82: a completed operation's response is the list of warnings it appended to the log; an operation
a bus fault ended gives none. -/
def Obligations.ResponseCarriesWarnings : Prop :=
  ∀ (s t : State) (d : Descriptor) (text : List Byte) (glyphs : Option GlyphSource) (rest : List Input),
    s.pending = .request d text glyphs :: rest → step s = .next t →
    (t.pstate ≠ .halted → ∃ warnings, t.response = some warnings ∧ t.warnlog = s.warnlog ++ warnings) ∧
    (t.pstate = .halted → t.response = none)

/-- 70_reset_and_hazards.md R197: every accepted operation terminates, with a response or in Halted, whatever the panel
and the link layer answer. -/
def Obligations.EveryAcceptedOperationTerminates : Prop :=
  ∀ (s : State) (i : Instr), s.ready →
    ((i = .initPanel ∧ s.pstate = .uninitialized) ∨ (i = .display ∧ s.pstate = .idle) ∨
      (∃ fill, i = .clear fill) ∨ i = .fillPattern ∨ i = .fillCheckerboard ∨
      (∃ x y text glyphs color, i = .drawText x y text glyphs color ∧ glyphTableCheck glyphs = none)) →
    ∃ t, exec i s = .next t ∧
      ((t.exec = false ∧ t.pstate ≠ .halted ∧ t.response.isSome = true) ∨
       (t.exec = true ∧ t.pstate = .halted ∧ t.response = none))

/-- 30_encoding.md R71: whatever a host requests, no command byte other than the thirteen is sent. -/
def Obligations.OnlyThirteenCommandsSent : Prop :=
  ∀ (s t : State) (d : Descriptor) (text : List Byte) (glyphs : Option GlyphSource) (rest : List Input),
    s.pending = .request d text glyphs :: rest → step s = .next t →
    ∃ es, t.trace = s.trace ++ es ∧ ∀ c ∈ commandBytes none es, ∃ k : PanelCommand, c = s.cfg.code k

/-- 42_framebuffer.md R136, 43_rasterizer.md R155 and 70_reset_and_hazards.md R190: nothing a drawing operation does
reaches the link: no line, no transfer, no sample, no event, no PSTATE. -/
def Obligations.DrawingStaysOffTheLink : Prop :=
  ∀ (i : Instr) (s t : State), exec i s = .next t →
    ((∃ fill, i = .clear fill) ∨ i = .fillPattern ∨ i = .fillCheckerboard ∨
      (∃ x y text glyphs color, i = .drawText x y text glyphs color)) →
    t.pstate = s.pstate ∧ t.cs = s.cs ∧ t.dc = s.dc ∧ t.rst = s.rst ∧ t.trace = s.trace ∧ t.env = s.env ∧
    t.busFault = s.busFault
end

