-- ==== Sys2Proof/Laws/Decode.lean ====
section
/-! SUPPORT. The fields of an assembled descriptor and of an assembled symbol, the thirteen codes, and the decoder's
cases. -/

namespace Sys2Proof

/-- A concatenation as a number. -/
theorem toNat_concat {n m : Nat} (u : BitVec n) (v : BitVec m) : (u ++ v).toNat = u.toNat * 2 ^ m + v.toNat := by
  rw [BitVec.toNat_append, ← Nat.shiftLeft_add_eq_or_of_lt v.isLt, Nat.shiftLeft_eq]

/-- An assembled descriptor as a number. -/
theorem Descriptor.toNat_mk (op : BitVec 4) (g : BitVec 1) (a : Byte) (x y l : Field16) :
    (Descriptor.mk op g a x y l).toNat =
      ((((op.toNat * 2 + g.toNat) * 2048 + a.toNat) * 65536 + x.toNat) * 65536 + y.toNat) * 65536 + l.toNat := by
  simp only [Descriptor.mk, BitVec.toNat_cast, toNat_concat]
  simp
  ring

@[simp] theorem Descriptor.op_mk (op : BitVec 4) (g : BitVec 1) (a : Byte) (x y l : Field16) :
    (Descriptor.mk op g a x y l).op = op := by
  apply BitVec.eq_of_toNat_eq
  simp only [Descriptor.op, BitVec.extractLsb'_toNat, Descriptor.toNat_mk, Nat.shiftRight_eq_div_pow]
  omega

@[simp] theorem Descriptor.g_mk (op : BitVec 4) (g : BitVec 1) (a : Byte) (x y l : Field16) :
    (Descriptor.mk op g a x y l).g = g := by
  apply BitVec.eq_of_toNat_eq
  simp only [Descriptor.g, BitVec.extractLsb'_toNat, Descriptor.toNat_mk, Nat.shiftRight_eq_div_pow]
  omega

@[simp] theorem Descriptor.reserved_mk (op : BitVec 4) (g : BitVec 1) (a : Byte) (x y l : Field16) :
    (Descriptor.mk op g a x y l).reserved = 0#3 := by
  apply BitVec.eq_of_toNat_eq
  simp only [Descriptor.reserved, BitVec.extractLsb'_toNat, Descriptor.toNat_mk,
    Nat.shiftRight_eq_div_pow, BitVec.toNat_ofNat]
  omega

@[simp] theorem Descriptor.arg8_mk (op : BitVec 4) (g : BitVec 1) (a : Byte) (x y l : Field16) :
    (Descriptor.mk op g a x y l).arg8 = a := by
  apply BitVec.eq_of_toNat_eq
  simp only [Descriptor.arg8, BitVec.extractLsb'_toNat, Descriptor.toNat_mk, Nat.shiftRight_eq_div_pow]
  omega

@[simp] theorem Descriptor.x_mk (op : BitVec 4) (g : BitVec 1) (a : Byte) (x y l : Field16) :
    (Descriptor.mk op g a x y l).x = x := by
  apply BitVec.eq_of_toNat_eq
  simp only [Descriptor.x, BitVec.extractLsb'_toNat, Descriptor.toNat_mk, Nat.shiftRight_eq_div_pow]
  omega

@[simp] theorem Descriptor.y_mk (op : BitVec 4) (g : BitVec 1) (a : Byte) (x y l : Field16) :
    (Descriptor.mk op g a x y l).y = y := by
  apply BitVec.eq_of_toNat_eq
  simp only [Descriptor.y, BitVec.extractLsb'_toNat, Descriptor.toNat_mk, Nat.shiftRight_eq_div_pow]
  omega

@[simp] theorem Descriptor.len_mk (op : BitVec 4) (g : BitVec 1) (a : Byte) (x y l : Field16) :
    (Descriptor.mk op g a x y l).len = l := by
  apply BitVec.eq_of_toNat_eq
  simp only [Descriptor.len, BitVec.extractLsb'_toNat, Descriptor.toNat_mk, Nat.shiftRight_eq_div_pow]
  omega

/-- A coordinate that fits is the one read from the field it is written to. -/
theorem Config.coord_ofInt {cfg : Config} {x : Int} (h : cfg.coordFits x = true) :
    cfg.coord (BitVec.ofInt 16 x) = x := by
  simp only [Config.coordFits, fitsSigned, Bool.and_eq_true, decide_eq_true_eq] at h
  have h16 : (BitVec.ofInt 16 x).toInt = x := by
    rw [BitVec.toInt_ofInt, Int.bmod_eq_of_le_mul_two] <;> push_cast <;> omega
  rw [Config.coord, BitVec.signExtend, h16, BitVec.toInt_ofInt, Int.bmod_eq_of_le_mul_two] <;> push_cast <;> omega

/-- A coordinate that is read from a field fits. -/
theorem Config.coordFits_coord (cfg : Config) (f : Field16) : cfg.coordFits (cfg.coord f) = true := by
  have hw : -(2 ^ cfg.coordBits) ≤ 2 * cfg.coord f ∧ 2 * cfg.coord f < 2 ^ cfg.coordBits :=
    ⟨BitVec.le_two_mul_toInt, BitVec.two_mul_toInt_lt⟩
  have hf : -(2 ^ 16) ≤ 2 * f.toInt ∧ 2 * f.toInt < 2 ^ 16 := ⟨BitVec.le_two_mul_toInt, BitVec.two_mul_toInt_lt⟩
  simp only [Config.coordFits, fitsSigned, Bool.and_eq_true, decide_eq_true_eq]
  refine ⟨hw, ?_⟩
  by_cases h : cfg.coordBits ≤ 16
  · have : (2 : Int) ^ cfg.coordBits ≤ 2 ^ 16 := pow_le_pow_right₀ (by norm_num) h
    omega
  · have : (2 : Int) ^ 16 ≤ 2 ^ cfg.coordBits := pow_le_pow_right₀ (by norm_num) (by omega)
    have he : cfg.coord f = f.toInt := by
      rw [Config.coord, BitVec.signExtend, BitVec.toInt_ofInt, Int.bmod_eq_of_le_mul_two] <;> push_cast <;> omega
    rw [he]
    exact hf

/-- A length that fits is the one read from the field it is written to. -/
theorem Config.textLen_ofNat {cfg : Config} {n : Nat} (h : cfg.lenFits n = true) :
    cfg.textLen (BitVec.ofNat 16 n) = n := by
  simp only [Config.lenFits, Bool.and_eq_true, decide_eq_true_eq] at h
  rw [Config.textLen, BitVec.toNat_ofNat, Nat.mod_eq_of_lt h.2, Nat.mod_eq_of_lt h.1]

/-- A length that is read from a field fits. -/
theorem Config.lenFits_textLen (cfg : Config) (f : Field16) : cfg.lenFits (cfg.textLen f) = true := by
  have h1 : cfg.textLen f < 2 ^ cfg.textLenBits := Nat.mod_lt _ (Nat.two_pow_pos _)
  have h2 : cfg.textLen f < 2 ^ 16 := (Nat.mod_le _ _).trans_lt f.isLt
  rw [Config.lenFits, decide_eq_true h1, decide_eq_true h2]
  rfl

@[simp] theorem Symbol.dc_mk (v : Level) (b : Byte) : (Symbol.mk v b).dc = v := by
  apply BitVec.eq_of_toNat_eq
  simp only [Symbol.mk, Symbol.dc, BitVec.toNat_cast, toNat_concat, BitVec.extractLsb'_toNat,
    Nat.shiftRight_eq_div_pow]
  omega

@[simp] theorem Symbol.byte_mk (v : Level) (b : Byte) : (Symbol.mk v b).byte = b := by
  apply BitVec.eq_of_toNat_eq
  simp only [Symbol.mk, Symbol.byte, BitVec.toNat_cast, toNat_concat, BitVec.extractLsb'_toNat,
    Nat.shiftRight_eq_div_pow]
  omega

@[simp] theorem Symbol.mk_dc_byte (s : Symbol) : Symbol.mk s.dc s.byte = s := by
  apply BitVec.eq_of_toNat_eq
  simp only [Symbol.mk, Symbol.dc, Symbol.byte, BitVec.toNat_cast, toNat_concat, BitVec.extractLsb'_toNat,
    Nat.shiftRight_eq_div_pow]
  omega

/-- The command a byte stands for has that byte as its code. -/
theorem Config.code_of_commandOf {cfg : Config} {c : Byte} {k : PanelCommand} (h : cfg.commandOf c = some k) :
    cfg.code k = c := by
  simpa using List.find?_some h

/-- Every panel command is one of the thirteen listed. -/
theorem PanelCommand.mem_all (k : PanelCommand) : k ∈ PanelCommand.all := by cases k <;> decide

/-- With pairwise distinct codes every code stands for its own command. -/
theorem Config.commandOf_code {cfg : Config} (h : cfg.codesDistinct) (k : PanelCommand) :
    cfg.commandOf (cfg.code k) = some k := by
  have hinj : ∀ j, cfg.code j = cfg.code k → j = k := fun j hj =>
    List.inj_on_of_nodup_map h (PanelCommand.mem_all j) (PanelCommand.mem_all k) hj
  cases hf : cfg.commandOf (cfg.code k) with
  | some j => rw [hinj j (Config.code_of_commandOf hf)]
  | none =>
    have := List.find?_eq_none.1 hf k (PanelCommand.mem_all k)
    simp at this

/-- A panel command's instruction is well formed exactly when its code is its own. -/
@[simp] theorem PanelCommand.wf_instr (cfg : Config) (k : PanelCommand) : k.instr.wf cfg = k.wf cfg := by
  cases k <;> rfl

/-- A panel command encodes to its one CMD symbol. -/
@[simp] theorem PanelCommand.encode_instr (cfg : Config) (k : PanelCommand) :
    encode cfg k.instr = .frame [Symbol.mk 0#1 (cfg.code k)] := by
  cases k <;> rfl

/-- The default codes are pairwise distinct (30_encoding.md R66). -/
theorem Config.default_codesDistinct : Config.default.codesDistinct := by decide

end Sys2Proof
end

