-- ==== Sys2Proof/Laws/State.lean ====
section
/-! SUPPORT. The fields of the state after each named update: one lemma per field per update, true by rfl. -/

namespace Sys2Proof.Machine

/-! ### warn -/

@[simp] theorem warn_cfg (w : Warning) (s : State) : (warn w s).cfg = s.cfg := rfl
@[simp] theorem warn_fb (w : Warning) (s : State) : (warn w s).fb = s.fb := rfl
@[simp] theorem warn_epoch (w : Warning) (s : State) : (warn w s).epoch = s.epoch := rfl
@[simp] theorem warn_pstate (w : Warning) (s : State) : (warn w s).pstate = s.pstate := rfl
@[simp] theorem warn_exec (w : Warning) (s : State) : (warn w s).exec = s.exec := rfl
@[simp] theorem warn_cs (w : Warning) (s : State) : (warn w s).cs = s.cs := rfl
@[simp] theorem warn_dc (w : Warning) (s : State) : (warn w s).dc = s.dc := rfl
@[simp] theorem warn_rst (w : Warning) (s : State) : (warn w s).rst = s.rst := rfl
@[simp] theorem warn_wflags (w : Warning) (s : State) : (warn w s).wflags = s.wflags.set w := rfl
@[simp] theorem warn_warnlog (w : Warning) (s : State) : (warn w s).warnlog = s.warnlog ++ [w] := rfl
@[simp] theorem warn_traceRev (w : Warning) (s : State) : (warn w s).traceRev = s.traceRev := rfl
@[simp] theorem warn_work (w : Warning) (s : State) : (warn w s).work = s.work := rfl
@[simp] theorem warn_response (w : Warning) (s : State) : (warn w s).response = s.response := rfl
@[simp] theorem warn_busFault (w : Warning) (s : State) : (warn w s).busFault = s.busFault := rfl
@[simp] theorem warn_ctx (w : Warning) (s : State) : (warn w s).ctx = s.ctx := rfl
@[simp] theorem warn_env (w : Warning) (s : State) : (warn w s).env = s.env := rfl
@[simp] theorem warn_pending (w : Warning) (s : State) : (warn w s).pending = s.pending := rfl
@[simp] theorem warn_frames (w : Warning) (s : State) : (warn w s).frames = s.frames := rfl
@[simp] theorem warn_trace (w : Warning) (s : State) : (warn w s).trace = s.trace := rfl

/-! ### writeFb -/

@[simp] theorem writeFb_cfg (a : Nat) (v : Byte) (s : State) : (writeFb a v s).cfg = s.cfg := rfl
@[simp] theorem writeFb_fb (a : Nat) (v : Byte) (s : State) : (writeFb a v s).fb = s.fb.write a v := rfl
@[simp] theorem writeFb_epoch (a : Nat) (v : Byte) (s : State) : (writeFb a v s).epoch = s.epoch := rfl
@[simp] theorem writeFb_pstate (a : Nat) (v : Byte) (s : State) : (writeFb a v s).pstate = s.pstate := rfl
@[simp] theorem writeFb_exec (a : Nat) (v : Byte) (s : State) : (writeFb a v s).exec = s.exec := rfl
@[simp] theorem writeFb_cs (a : Nat) (v : Byte) (s : State) : (writeFb a v s).cs = s.cs := rfl
@[simp] theorem writeFb_dc (a : Nat) (v : Byte) (s : State) : (writeFb a v s).dc = s.dc := rfl
@[simp] theorem writeFb_rst (a : Nat) (v : Byte) (s : State) : (writeFb a v s).rst = s.rst := rfl
@[simp] theorem writeFb_wflags (a : Nat) (v : Byte) (s : State) : (writeFb a v s).wflags = s.wflags := rfl
@[simp] theorem writeFb_warnlog (a : Nat) (v : Byte) (s : State) : (writeFb a v s).warnlog = s.warnlog := rfl
@[simp] theorem writeFb_traceRev (a : Nat) (v : Byte) (s : State) : (writeFb a v s).traceRev = s.traceRev := rfl
@[simp] theorem writeFb_work (a : Nat) (v : Byte) (s : State) : (writeFb a v s).work = s.work := rfl
@[simp] theorem writeFb_response (a : Nat) (v : Byte) (s : State) : (writeFb a v s).response = s.response := rfl
@[simp] theorem writeFb_busFault (a : Nat) (v : Byte) (s : State) : (writeFb a v s).busFault = s.busFault := rfl
@[simp] theorem writeFb_ctx (a : Nat) (v : Byte) (s : State) : (writeFb a v s).ctx = s.ctx := rfl
@[simp] theorem writeFb_env (a : Nat) (v : Byte) (s : State) : (writeFb a v s).env = s.env := rfl
@[simp] theorem writeFb_pending (a : Nat) (v : Byte) (s : State) : (writeFb a v s).pending = s.pending := rfl
@[simp] theorem writeFb_frames (a : Nat) (v : Byte) (s : State) : (writeFb a v s).frames = s.frames := rfl
@[simp] theorem writeFb_trace (a : Nat) (v : Byte) (s : State) : (writeFb a v s).trace = s.trace := rfl

/-! ### emit -/

@[simp] theorem emit_cfg (e : Event) (s : State) : (emit e s).cfg = s.cfg := rfl
@[simp] theorem emit_fb (e : Event) (s : State) : (emit e s).fb = s.fb := rfl
@[simp] theorem emit_epoch (e : Event) (s : State) : (emit e s).epoch = s.epoch := rfl
@[simp] theorem emit_pstate (e : Event) (s : State) : (emit e s).pstate = s.pstate := rfl
@[simp] theorem emit_exec (e : Event) (s : State) : (emit e s).exec = s.exec := rfl
@[simp] theorem emit_cs (e : Event) (s : State) : (emit e s).cs = s.cs := rfl
@[simp] theorem emit_dc (e : Event) (s : State) : (emit e s).dc = s.dc := rfl
@[simp] theorem emit_rst (e : Event) (s : State) : (emit e s).rst = s.rst := rfl
@[simp] theorem emit_wflags (e : Event) (s : State) : (emit e s).wflags = s.wflags := rfl
@[simp] theorem emit_warnlog (e : Event) (s : State) : (emit e s).warnlog = s.warnlog := rfl
@[simp] theorem emit_traceRev (e : Event) (s : State) : (emit e s).traceRev = e :: s.traceRev := rfl
@[simp] theorem emit_work (e : Event) (s : State) : (emit e s).work = s.work := rfl
@[simp] theorem emit_response (e : Event) (s : State) : (emit e s).response = s.response := rfl
@[simp] theorem emit_busFault (e : Event) (s : State) : (emit e s).busFault = s.busFault := rfl
@[simp] theorem emit_ctx (e : Event) (s : State) : (emit e s).ctx = s.ctx := rfl
@[simp] theorem emit_env (e : Event) (s : State) : (emit e s).env = s.env := rfl
@[simp] theorem emit_pending (e : Event) (s : State) : (emit e s).pending = s.pending := rfl
@[simp] theorem emit_frames (e : Event) (s : State) : (emit e s).frames = s.frames := rfl
@[simp] theorem emit_trace (e : Event) (s : State) : (emit e s).trace = s.trace ++ [e] := by simp [State.trace]

/-! ### driveRst -/

@[simp] theorem driveRst_cfg (v : Level) (s : State) : (driveRst v s).cfg = s.cfg := rfl
@[simp] theorem driveRst_fb (v : Level) (s : State) : (driveRst v s).fb = s.fb := rfl
@[simp] theorem driveRst_epoch (v : Level) (s : State) : (driveRst v s).epoch = s.epoch := rfl
@[simp] theorem driveRst_pstate (v : Level) (s : State) : (driveRst v s).pstate = s.pstate := rfl
@[simp] theorem driveRst_exec (v : Level) (s : State) : (driveRst v s).exec = s.exec := rfl
@[simp] theorem driveRst_cs (v : Level) (s : State) : (driveRst v s).cs = s.cs := rfl
@[simp] theorem driveRst_dc (v : Level) (s : State) : (driveRst v s).dc = s.dc := rfl
@[simp] theorem driveRst_rst (v : Level) (s : State) : (driveRst v s).rst = v := rfl
@[simp] theorem driveRst_wflags (v : Level) (s : State) : (driveRst v s).wflags = s.wflags := rfl
@[simp] theorem driveRst_warnlog (v : Level) (s : State) : (driveRst v s).warnlog = s.warnlog := rfl
@[simp] theorem driveRst_traceRev (v : Level) (s : State) : (driveRst v s).traceRev = .rst v :: s.traceRev := rfl
@[simp] theorem driveRst_work (v : Level) (s : State) : (driveRst v s).work = s.work := rfl
@[simp] theorem driveRst_response (v : Level) (s : State) : (driveRst v s).response = s.response := rfl
@[simp] theorem driveRst_busFault (v : Level) (s : State) : (driveRst v s).busFault = s.busFault := rfl
@[simp] theorem driveRst_ctx (v : Level) (s : State) : (driveRst v s).ctx = s.ctx := rfl
@[simp] theorem driveRst_env (v : Level) (s : State) : (driveRst v s).env = s.env := rfl
@[simp] theorem driveRst_pending (v : Level) (s : State) : (driveRst v s).pending = s.pending := rfl
@[simp] theorem driveRst_frames (v : Level) (s : State) : (driveRst v s).frames = s.frames := rfl
@[simp] theorem driveRst_trace (v : Level) (s : State) : (driveRst v s).trace = s.trace ++ [.rst v] := by simp [State.trace]

/-! ### driveDc -/

@[simp] theorem driveDc_cfg (v : Level) (s : State) : (driveDc v s).cfg = s.cfg := rfl
@[simp] theorem driveDc_fb (v : Level) (s : State) : (driveDc v s).fb = s.fb := rfl
@[simp] theorem driveDc_epoch (v : Level) (s : State) : (driveDc v s).epoch = s.epoch := rfl
@[simp] theorem driveDc_pstate (v : Level) (s : State) : (driveDc v s).pstate = s.pstate := rfl
@[simp] theorem driveDc_exec (v : Level) (s : State) : (driveDc v s).exec = s.exec := rfl
@[simp] theorem driveDc_cs (v : Level) (s : State) : (driveDc v s).cs = s.cs := rfl
@[simp] theorem driveDc_dc (v : Level) (s : State) : (driveDc v s).dc = v := rfl
@[simp] theorem driveDc_rst (v : Level) (s : State) : (driveDc v s).rst = s.rst := rfl
@[simp] theorem driveDc_wflags (v : Level) (s : State) : (driveDc v s).wflags = s.wflags := rfl
@[simp] theorem driveDc_warnlog (v : Level) (s : State) : (driveDc v s).warnlog = s.warnlog := rfl
@[simp] theorem driveDc_traceRev (v : Level) (s : State) : (driveDc v s).traceRev = .dc v :: s.traceRev := rfl
@[simp] theorem driveDc_work (v : Level) (s : State) : (driveDc v s).work = s.work := rfl
@[simp] theorem driveDc_response (v : Level) (s : State) : (driveDc v s).response = s.response := rfl
@[simp] theorem driveDc_busFault (v : Level) (s : State) : (driveDc v s).busFault = s.busFault := rfl
@[simp] theorem driveDc_ctx (v : Level) (s : State) : (driveDc v s).ctx = s.ctx := rfl
@[simp] theorem driveDc_env (v : Level) (s : State) : (driveDc v s).env = s.env := rfl
@[simp] theorem driveDc_pending (v : Level) (s : State) : (driveDc v s).pending = s.pending := rfl
@[simp] theorem driveDc_frames (v : Level) (s : State) : (driveDc v s).frames = s.frames := rfl
@[simp] theorem driveDc_trace (v : Level) (s : State) : (driveDc v s).trace = s.trace ++ [.dc v] := by simp [State.trace]

/-! ### driveCs -/

@[simp] theorem driveCs_cfg (v : Level) (s : State) : (driveCs v s).cfg = s.cfg := rfl
@[simp] theorem driveCs_fb (v : Level) (s : State) : (driveCs v s).fb = s.fb := rfl
@[simp] theorem driveCs_epoch (v : Level) (s : State) : (driveCs v s).epoch = s.epoch := rfl
@[simp] theorem driveCs_pstate (v : Level) (s : State) : (driveCs v s).pstate = s.pstate := rfl
@[simp] theorem driveCs_exec (v : Level) (s : State) : (driveCs v s).exec = s.exec := rfl
@[simp] theorem driveCs_cs (v : Level) (s : State) : (driveCs v s).cs = v := rfl
@[simp] theorem driveCs_dc (v : Level) (s : State) : (driveCs v s).dc = s.dc := rfl
@[simp] theorem driveCs_rst (v : Level) (s : State) : (driveCs v s).rst = s.rst := rfl
@[simp] theorem driveCs_wflags (v : Level) (s : State) : (driveCs v s).wflags = s.wflags := rfl
@[simp] theorem driveCs_warnlog (v : Level) (s : State) : (driveCs v s).warnlog = s.warnlog := rfl
@[simp] theorem driveCs_traceRev (v : Level) (s : State) : (driveCs v s).traceRev = .cs v :: s.traceRev := rfl
@[simp] theorem driveCs_work (v : Level) (s : State) : (driveCs v s).work = s.work := rfl
@[simp] theorem driveCs_response (v : Level) (s : State) : (driveCs v s).response = s.response := rfl
@[simp] theorem driveCs_busFault (v : Level) (s : State) : (driveCs v s).busFault = s.busFault := rfl
@[simp] theorem driveCs_ctx (v : Level) (s : State) : (driveCs v s).ctx = s.ctx := rfl
@[simp] theorem driveCs_env (v : Level) (s : State) : (driveCs v s).env = s.env := rfl
@[simp] theorem driveCs_pending (v : Level) (s : State) : (driveCs v s).pending = s.pending := rfl
@[simp] theorem driveCs_frames (v : Level) (s : State) : (driveCs v s).frames = s.frames := rfl
@[simp] theorem driveCs_trace (v : Level) (s : State) : (driveCs v s).trace = s.trace ++ [.cs v] := by simp [State.trace]

/-! ### delayMs -/

@[simp] theorem delayMs_cfg (n : Nat) (s : State) : (delayMs n s).cfg = s.cfg := rfl
@[simp] theorem delayMs_fb (n : Nat) (s : State) : (delayMs n s).fb = s.fb := rfl
@[simp] theorem delayMs_epoch (n : Nat) (s : State) : (delayMs n s).epoch = s.epoch := rfl
@[simp] theorem delayMs_pstate (n : Nat) (s : State) : (delayMs n s).pstate = s.pstate := rfl
@[simp] theorem delayMs_exec (n : Nat) (s : State) : (delayMs n s).exec = s.exec := rfl
@[simp] theorem delayMs_cs (n : Nat) (s : State) : (delayMs n s).cs = s.cs := rfl
@[simp] theorem delayMs_dc (n : Nat) (s : State) : (delayMs n s).dc = s.dc := rfl
@[simp] theorem delayMs_rst (n : Nat) (s : State) : (delayMs n s).rst = s.rst := rfl
@[simp] theorem delayMs_wflags (n : Nat) (s : State) : (delayMs n s).wflags = s.wflags := rfl
@[simp] theorem delayMs_warnlog (n : Nat) (s : State) : (delayMs n s).warnlog = s.warnlog := rfl
@[simp] theorem delayMs_traceRev (n : Nat) (s : State) : (delayMs n s).traceRev = .delay n :: s.traceRev := rfl
@[simp] theorem delayMs_work (n : Nat) (s : State) : (delayMs n s).work = { s.work with delayTmr := 0 } := rfl
@[simp] theorem delayMs_response (n : Nat) (s : State) : (delayMs n s).response = s.response := rfl
@[simp] theorem delayMs_busFault (n : Nat) (s : State) : (delayMs n s).busFault = s.busFault := rfl
@[simp] theorem delayMs_ctx (n : Nat) (s : State) : (delayMs n s).ctx = s.ctx := rfl
@[simp] theorem delayMs_env (n : Nat) (s : State) : (delayMs n s).env = s.env := rfl
@[simp] theorem delayMs_pending (n : Nat) (s : State) : (delayMs n s).pending = s.pending := rfl
@[simp] theorem delayMs_frames (n : Nat) (s : State) : (delayMs n s).frames = s.frames := rfl
@[simp] theorem delayMs_trace (n : Nat) (s : State) : (delayMs n s).trace = s.trace ++ [.delay n] := by simp [State.trace]

/-! ### setPState -/

@[simp] theorem setPState_cfg (p : PState) (s : State) : (setPState p s).cfg = s.cfg := rfl
@[simp] theorem setPState_fb (p : PState) (s : State) : (setPState p s).fb = s.fb := rfl
@[simp] theorem setPState_epoch (p : PState) (s : State) : (setPState p s).epoch = s.epoch := rfl
@[simp] theorem setPState_pstate (p : PState) (s : State) : (setPState p s).pstate = p := rfl
@[simp] theorem setPState_exec (p : PState) (s : State) : (setPState p s).exec = s.exec := rfl
@[simp] theorem setPState_cs (p : PState) (s : State) : (setPState p s).cs = s.cs := rfl
@[simp] theorem setPState_dc (p : PState) (s : State) : (setPState p s).dc = s.dc := rfl
@[simp] theorem setPState_rst (p : PState) (s : State) : (setPState p s).rst = s.rst := rfl
@[simp] theorem setPState_wflags (p : PState) (s : State) : (setPState p s).wflags = s.wflags := rfl
@[simp] theorem setPState_warnlog (p : PState) (s : State) : (setPState p s).warnlog = s.warnlog := rfl
@[simp] theorem setPState_traceRev (p : PState) (s : State) : (setPState p s).traceRev = s.traceRev := rfl
@[simp] theorem setPState_work (p : PState) (s : State) : (setPState p s).work = s.work := rfl
@[simp] theorem setPState_response (p : PState) (s : State) : (setPState p s).response = s.response := rfl
@[simp] theorem setPState_busFault (p : PState) (s : State) : (setPState p s).busFault = s.busFault := rfl
@[simp] theorem setPState_ctx (p : PState) (s : State) : (setPState p s).ctx = s.ctx := rfl
@[simp] theorem setPState_env (p : PState) (s : State) : (setPState p s).env = s.env := rfl
@[simp] theorem setPState_pending (p : PState) (s : State) : (setPState p s).pending = s.pending := rfl
@[simp] theorem setPState_frames (p : PState) (s : State) : (setPState p s).frames = s.frames := rfl
@[simp] theorem setPState_trace (p : PState) (s : State) : (setPState p s).trace = s.trace := rfl

/-! ### sampleBusy -/

@[simp] theorem sampleBusy_cfg (s : State) : (sampleBusy s).cfg = s.cfg := rfl
@[simp] theorem sampleBusy_fb (s : State) : (sampleBusy s).fb = s.fb := rfl
@[simp] theorem sampleBusy_epoch (s : State) : (sampleBusy s).epoch = s.epoch := rfl
@[simp] theorem sampleBusy_pstate (s : State) : (sampleBusy s).pstate = s.pstate := rfl
@[simp] theorem sampleBusy_exec (s : State) : (sampleBusy s).exec = s.exec := rfl
@[simp] theorem sampleBusy_cs (s : State) : (sampleBusy s).cs = s.cs := rfl
@[simp] theorem sampleBusy_dc (s : State) : (sampleBusy s).dc = s.dc := rfl
@[simp] theorem sampleBusy_rst (s : State) : (sampleBusy s).rst = s.rst := rfl
@[simp] theorem sampleBusy_wflags (s : State) : (sampleBusy s).wflags = s.wflags := rfl
@[simp] theorem sampleBusy_warnlog (s : State) : (sampleBusy s).warnlog = s.warnlog := rfl
@[simp] theorem sampleBusy_traceRev (s : State) : (sampleBusy s).traceRev = .busy (s.busyAnswer 0) :: s.traceRev := rfl
@[simp] theorem sampleBusy_work (s : State) : (sampleBusy s).work = s.work := rfl
@[simp] theorem sampleBusy_response (s : State) : (sampleBusy s).response = s.response := rfl
@[simp] theorem sampleBusy_busFault (s : State) : (sampleBusy s).busFault = s.busFault := rfl
@[simp] theorem sampleBusy_ctx (s : State) : (sampleBusy s).ctx = s.ctx := rfl
@[simp] theorem sampleBusy_env (s : State) : (sampleBusy s).env = s.env.takeBusys 1 := by simp [sampleBusy, emit, Env.takeBusys]
@[simp] theorem sampleBusy_pending (s : State) : (sampleBusy s).pending = s.pending := rfl
@[simp] theorem sampleBusy_frames (s : State) : (sampleBusy s).frames = s.frames := rfl
@[simp] theorem sampleBusy_trace (s : State) : (sampleBusy s).trace = s.trace ++ [.busy (s.busyAnswer 0)] := by simp [State.trace]

/-! ### takeLink -/

@[simp] theorem takeLink_cfg (s : State) : (takeLink s).cfg = s.cfg := rfl
@[simp] theorem takeLink_fb (s : State) : (takeLink s).fb = s.fb := rfl
@[simp] theorem takeLink_epoch (s : State) : (takeLink s).epoch = s.epoch := rfl
@[simp] theorem takeLink_pstate (s : State) : (takeLink s).pstate = s.pstate := rfl
@[simp] theorem takeLink_exec (s : State) : (takeLink s).exec = s.exec := rfl
@[simp] theorem takeLink_cs (s : State) : (takeLink s).cs = s.cs := rfl
@[simp] theorem takeLink_dc (s : State) : (takeLink s).dc = s.dc := rfl
@[simp] theorem takeLink_rst (s : State) : (takeLink s).rst = s.rst := rfl
@[simp] theorem takeLink_wflags (s : State) : (takeLink s).wflags = s.wflags := rfl
@[simp] theorem takeLink_warnlog (s : State) : (takeLink s).warnlog = s.warnlog := rfl
@[simp] theorem takeLink_traceRev (s : State) : (takeLink s).traceRev = s.traceRev := rfl
@[simp] theorem takeLink_work (s : State) : (takeLink s).work = s.work := rfl
@[simp] theorem takeLink_response (s : State) : (takeLink s).response = s.response := rfl
@[simp] theorem takeLink_busFault (s : State) : (takeLink s).busFault = s.busFault := rfl
@[simp] theorem takeLink_ctx (s : State) : (takeLink s).ctx = s.ctx := rfl
@[simp] theorem takeLink_env (s : State) : (takeLink s).env = s.env.takeLinks 1 := by simp [takeLink, Env.takeLinks]
@[simp] theorem takeLink_pending (s : State) : (takeLink s).pending = s.pending := rfl
@[simp] theorem takeLink_frames (s : State) : (takeLink s).frames = s.frames := rfl
@[simp] theorem takeLink_trace (s : State) : (takeLink s).trace = s.trace := rfl

/-! ### raiseBusFault -/

@[simp] theorem raiseBusFault_cfg (c : TransportCall) (s : State) : (raiseBusFault c s).cfg = s.cfg := rfl
@[simp] theorem raiseBusFault_fb (c : TransportCall) (s : State) : (raiseBusFault c s).fb = s.fb := rfl
@[simp] theorem raiseBusFault_epoch (c : TransportCall) (s : State) : (raiseBusFault c s).epoch = s.epoch := rfl
@[simp] theorem raiseBusFault_pstate (c : TransportCall) (s : State) : (raiseBusFault c s).pstate = .halted := rfl
@[simp] theorem raiseBusFault_exec (c : TransportCall) (s : State) : (raiseBusFault c s).exec = s.exec := rfl
@[simp] theorem raiseBusFault_cs (c : TransportCall) (s : State) : (raiseBusFault c s).cs = s.cs := rfl
@[simp] theorem raiseBusFault_dc (c : TransportCall) (s : State) : (raiseBusFault c s).dc = s.dc := rfl
@[simp] theorem raiseBusFault_rst (c : TransportCall) (s : State) : (raiseBusFault c s).rst = s.rst := rfl
@[simp] theorem raiseBusFault_wflags (c : TransportCall) (s : State) : (raiseBusFault c s).wflags = s.wflags := rfl
@[simp] theorem raiseBusFault_warnlog (c : TransportCall) (s : State) : (raiseBusFault c s).warnlog = s.warnlog := rfl
@[simp] theorem raiseBusFault_traceRev (c : TransportCall) (s : State) : (raiseBusFault c s).traceRev = s.traceRev := rfl
@[simp] theorem raiseBusFault_work (c : TransportCall) (s : State) : (raiseBusFault c s).work = s.work := rfl
@[simp] theorem raiseBusFault_response (c : TransportCall) (s : State) : (raiseBusFault c s).response = s.response := rfl
@[simp] theorem raiseBusFault_busFault (c : TransportCall) (s : State) : (raiseBusFault c s).busFault = some ⟨s.ctx.operation, s.ctx.calls, c⟩ := rfl
@[simp] theorem raiseBusFault_ctx (c : TransportCall) (s : State) : (raiseBusFault c s).ctx = s.ctx := rfl
@[simp] theorem raiseBusFault_env (c : TransportCall) (s : State) : (raiseBusFault c s).env = s.env := rfl
@[simp] theorem raiseBusFault_pending (c : TransportCall) (s : State) : (raiseBusFault c s).pending = s.pending := rfl
@[simp] theorem raiseBusFault_frames (c : TransportCall) (s : State) : (raiseBusFault c s).frames = s.frames := rfl
@[simp] theorem raiseBusFault_trace (c : TransportCall) (s : State) : (raiseBusFault c s).trace = s.trace := rfl

/-! ### accept -/

@[simp] theorem accept_cfg (op : Operation) (s : State) : (accept op s).cfg = s.cfg := rfl
@[simp] theorem accept_fb (op : Operation) (s : State) : (accept op s).fb = s.fb := rfl
@[simp] theorem accept_epoch (op : Operation) (s : State) : (accept op s).epoch = s.epoch := rfl
@[simp] theorem accept_pstate (op : Operation) (s : State) : (accept op s).pstate = s.pstate := rfl
@[simp] theorem accept_exec (op : Operation) (s : State) : (accept op s).exec = true := rfl
@[simp] theorem accept_cs (op : Operation) (s : State) : (accept op s).cs = s.cs := rfl
@[simp] theorem accept_dc (op : Operation) (s : State) : (accept op s).dc = s.dc := rfl
@[simp] theorem accept_rst (op : Operation) (s : State) : (accept op s).rst = s.rst := rfl
@[simp] theorem accept_wflags (op : Operation) (s : State) : (accept op s).wflags = s.wflags := rfl
@[simp] theorem accept_warnlog (op : Operation) (s : State) : (accept op s).warnlog = s.warnlog := rfl
@[simp] theorem accept_traceRev (op : Operation) (s : State) : (accept op s).traceRev = s.traceRev := rfl
@[simp] theorem accept_work (op : Operation) (s : State) : (accept op s).work = s.work := rfl
@[simp] theorem accept_response (op : Operation) (s : State) : (accept op s).response = none := rfl
@[simp] theorem accept_busFault (op : Operation) (s : State) : (accept op s).busFault = s.busFault := rfl
@[simp] theorem accept_ctx (op : Operation) (s : State) : (accept op s).ctx = ⟨some op, 0⟩ := rfl
@[simp] theorem accept_env (op : Operation) (s : State) : (accept op s).env = s.env := rfl
@[simp] theorem accept_pending (op : Operation) (s : State) : (accept op s).pending = s.pending := rfl
@[simp] theorem accept_frames (op : Operation) (s : State) : (accept op s).frames = s.frames := rfl
@[simp] theorem accept_trace (op : Operation) (s : State) : (accept op s).trace = s.trace := rfl

/-! ### countCall -/

@[simp] theorem countCall_cfg (s : State) : (countCall s).cfg = s.cfg := rfl
@[simp] theorem countCall_fb (s : State) : (countCall s).fb = s.fb := rfl
@[simp] theorem countCall_epoch (s : State) : (countCall s).epoch = s.epoch := rfl
@[simp] theorem countCall_pstate (s : State) : (countCall s).pstate = s.pstate := rfl
@[simp] theorem countCall_exec (s : State) : (countCall s).exec = s.exec := rfl
@[simp] theorem countCall_cs (s : State) : (countCall s).cs = s.cs := rfl
@[simp] theorem countCall_dc (s : State) : (countCall s).dc = s.dc := rfl
@[simp] theorem countCall_rst (s : State) : (countCall s).rst = s.rst := rfl
@[simp] theorem countCall_wflags (s : State) : (countCall s).wflags = s.wflags := rfl
@[simp] theorem countCall_warnlog (s : State) : (countCall s).warnlog = s.warnlog := rfl
@[simp] theorem countCall_traceRev (s : State) : (countCall s).traceRev = s.traceRev := rfl
@[simp] theorem countCall_work (s : State) : (countCall s).work = s.work := rfl
@[simp] theorem countCall_response (s : State) : (countCall s).response = s.response := rfl
@[simp] theorem countCall_busFault (s : State) : (countCall s).busFault = s.busFault := rfl
@[simp] theorem countCall_ctx (s : State) : (countCall s).ctx = { s.ctx with calls := s.ctx.calls + 1 } := rfl
@[simp] theorem countCall_env (s : State) : (countCall s).env = s.env := rfl
@[simp] theorem countCall_pending (s : State) : (countCall s).pending = s.pending := rfl
@[simp] theorem countCall_frames (s : State) : (countCall s).frames = s.frames := rfl
@[simp] theorem countCall_trace (s : State) : (countCall s).trace = s.trace := rfl

/-! ### setStreamIdx -/

@[simp] theorem setStreamIdx_cfg (n : Nat) (s : State) : (setStreamIdx n s).cfg = s.cfg := rfl
@[simp] theorem setStreamIdx_fb (n : Nat) (s : State) : (setStreamIdx n s).fb = s.fb := rfl
@[simp] theorem setStreamIdx_epoch (n : Nat) (s : State) : (setStreamIdx n s).epoch = s.epoch := rfl
@[simp] theorem setStreamIdx_pstate (n : Nat) (s : State) : (setStreamIdx n s).pstate = s.pstate := rfl
@[simp] theorem setStreamIdx_exec (n : Nat) (s : State) : (setStreamIdx n s).exec = s.exec := rfl
@[simp] theorem setStreamIdx_cs (n : Nat) (s : State) : (setStreamIdx n s).cs = s.cs := rfl
@[simp] theorem setStreamIdx_dc (n : Nat) (s : State) : (setStreamIdx n s).dc = s.dc := rfl
@[simp] theorem setStreamIdx_rst (n : Nat) (s : State) : (setStreamIdx n s).rst = s.rst := rfl
@[simp] theorem setStreamIdx_wflags (n : Nat) (s : State) : (setStreamIdx n s).wflags = s.wflags := rfl
@[simp] theorem setStreamIdx_warnlog (n : Nat) (s : State) : (setStreamIdx n s).warnlog = s.warnlog := rfl
@[simp] theorem setStreamIdx_traceRev (n : Nat) (s : State) : (setStreamIdx n s).traceRev = s.traceRev := rfl
@[simp] theorem setStreamIdx_work (n : Nat) (s : State) : (setStreamIdx n s).work = { s.work with streamIdx := n } := rfl
@[simp] theorem setStreamIdx_response (n : Nat) (s : State) : (setStreamIdx n s).response = s.response := rfl
@[simp] theorem setStreamIdx_busFault (n : Nat) (s : State) : (setStreamIdx n s).busFault = s.busFault := rfl
@[simp] theorem setStreamIdx_ctx (n : Nat) (s : State) : (setStreamIdx n s).ctx = s.ctx := rfl
@[simp] theorem setStreamIdx_env (n : Nat) (s : State) : (setStreamIdx n s).env = s.env := rfl
@[simp] theorem setStreamIdx_pending (n : Nat) (s : State) : (setStreamIdx n s).pending = s.pending := rfl
@[simp] theorem setStreamIdx_frames (n : Nat) (s : State) : (setStreamIdx n s).frames = s.frames := rfl
@[simp] theorem setStreamIdx_trace (n : Nat) (s : State) : (setStreamIdx n s).trace = s.trace := rfl

/-! ### setPollCnt -/

@[simp] theorem setPollCnt_cfg (n : Nat) (s : State) : (setPollCnt n s).cfg = s.cfg := rfl
@[simp] theorem setPollCnt_fb (n : Nat) (s : State) : (setPollCnt n s).fb = s.fb := rfl
@[simp] theorem setPollCnt_epoch (n : Nat) (s : State) : (setPollCnt n s).epoch = s.epoch := rfl
@[simp] theorem setPollCnt_pstate (n : Nat) (s : State) : (setPollCnt n s).pstate = s.pstate := rfl
@[simp] theorem setPollCnt_exec (n : Nat) (s : State) : (setPollCnt n s).exec = s.exec := rfl
@[simp] theorem setPollCnt_cs (n : Nat) (s : State) : (setPollCnt n s).cs = s.cs := rfl
@[simp] theorem setPollCnt_dc (n : Nat) (s : State) : (setPollCnt n s).dc = s.dc := rfl
@[simp] theorem setPollCnt_rst (n : Nat) (s : State) : (setPollCnt n s).rst = s.rst := rfl
@[simp] theorem setPollCnt_wflags (n : Nat) (s : State) : (setPollCnt n s).wflags = s.wflags := rfl
@[simp] theorem setPollCnt_warnlog (n : Nat) (s : State) : (setPollCnt n s).warnlog = s.warnlog := rfl
@[simp] theorem setPollCnt_traceRev (n : Nat) (s : State) : (setPollCnt n s).traceRev = s.traceRev := rfl
@[simp] theorem setPollCnt_work (n : Nat) (s : State) : (setPollCnt n s).work = { s.work with pollCnt := n } := rfl
@[simp] theorem setPollCnt_response (n : Nat) (s : State) : (setPollCnt n s).response = s.response := rfl
@[simp] theorem setPollCnt_busFault (n : Nat) (s : State) : (setPollCnt n s).busFault = s.busFault := rfl
@[simp] theorem setPollCnt_ctx (n : Nat) (s : State) : (setPollCnt n s).ctx = s.ctx := rfl
@[simp] theorem setPollCnt_env (n : Nat) (s : State) : (setPollCnt n s).env = s.env := rfl
@[simp] theorem setPollCnt_pending (n : Nat) (s : State) : (setPollCnt n s).pending = s.pending := rfl
@[simp] theorem setPollCnt_frames (n : Nat) (s : State) : (setPollCnt n s).frames = s.frames := rfl
@[simp] theorem setPollCnt_trace (n : Nat) (s : State) : (setPollCnt n s).trace = s.trace := rfl

/-! ### fillFb -/

@[simp] theorem fillFb_cfg (f : Nat → Byte) (s : State) : (fillFb f s).cfg = s.cfg := rfl
@[simp] theorem fillFb_fb (f : Nat → Byte) (s : State) : (fillFb f s).fb = s.fb.fill s.cfg.fbSize f := rfl
@[simp] theorem fillFb_epoch (f : Nat → Byte) (s : State) : (fillFb f s).epoch = s.epoch := rfl
@[simp] theorem fillFb_pstate (f : Nat → Byte) (s : State) : (fillFb f s).pstate = s.pstate := rfl
@[simp] theorem fillFb_exec (f : Nat → Byte) (s : State) : (fillFb f s).exec = s.exec := rfl
@[simp] theorem fillFb_cs (f : Nat → Byte) (s : State) : (fillFb f s).cs = s.cs := rfl
@[simp] theorem fillFb_dc (f : Nat → Byte) (s : State) : (fillFb f s).dc = s.dc := rfl
@[simp] theorem fillFb_rst (f : Nat → Byte) (s : State) : (fillFb f s).rst = s.rst := rfl
@[simp] theorem fillFb_wflags (f : Nat → Byte) (s : State) : (fillFb f s).wflags = s.wflags := rfl
@[simp] theorem fillFb_warnlog (f : Nat → Byte) (s : State) : (fillFb f s).warnlog = s.warnlog := rfl
@[simp] theorem fillFb_traceRev (f : Nat → Byte) (s : State) : (fillFb f s).traceRev = s.traceRev := rfl
@[simp] theorem fillFb_work (f : Nat → Byte) (s : State) : (fillFb f s).work = { s.work with streamIdx := s.cfg.fbSize } := rfl
@[simp] theorem fillFb_response (f : Nat → Byte) (s : State) : (fillFb f s).response = s.response := rfl
@[simp] theorem fillFb_busFault (f : Nat → Byte) (s : State) : (fillFb f s).busFault = s.busFault := rfl
@[simp] theorem fillFb_ctx (f : Nat → Byte) (s : State) : (fillFb f s).ctx = s.ctx := rfl
@[simp] theorem fillFb_env (f : Nat → Byte) (s : State) : (fillFb f s).env = s.env := rfl
@[simp] theorem fillFb_pending (f : Nat → Byte) (s : State) : (fillFb f s).pending = s.pending := rfl
@[simp] theorem fillFb_frames (f : Nat → Byte) (s : State) : (fillFb f s).frames = s.frames := rfl
@[simp] theorem fillFb_trace (f : Nat → Byte) (s : State) : (fillFb f s).trace = s.trace := rfl

/-! ### setGRow -/

@[simp] theorem setGRow_cfg (r : Nat) (s : State) : (setGRow r s).cfg = s.cfg := rfl
@[simp] theorem setGRow_fb (r : Nat) (s : State) : (setGRow r s).fb = s.fb := rfl
@[simp] theorem setGRow_epoch (r : Nat) (s : State) : (setGRow r s).epoch = s.epoch := rfl
@[simp] theorem setGRow_pstate (r : Nat) (s : State) : (setGRow r s).pstate = s.pstate := rfl
@[simp] theorem setGRow_exec (r : Nat) (s : State) : (setGRow r s).exec = s.exec := rfl
@[simp] theorem setGRow_cs (r : Nat) (s : State) : (setGRow r s).cs = s.cs := rfl
@[simp] theorem setGRow_dc (r : Nat) (s : State) : (setGRow r s).dc = s.dc := rfl
@[simp] theorem setGRow_rst (r : Nat) (s : State) : (setGRow r s).rst = s.rst := rfl
@[simp] theorem setGRow_wflags (r : Nat) (s : State) : (setGRow r s).wflags = s.wflags := rfl
@[simp] theorem setGRow_warnlog (r : Nat) (s : State) : (setGRow r s).warnlog = s.warnlog := rfl
@[simp] theorem setGRow_traceRev (r : Nat) (s : State) : (setGRow r s).traceRev = s.traceRev := rfl
@[simp] theorem setGRow_work (r : Nat) (s : State) : (setGRow r s).work = { s.work with gRow := BitVec.ofNat 8 r } := rfl
@[simp] theorem setGRow_response (r : Nat) (s : State) : (setGRow r s).response = s.response := rfl
@[simp] theorem setGRow_busFault (r : Nat) (s : State) : (setGRow r s).busFault = s.busFault := rfl
@[simp] theorem setGRow_ctx (r : Nat) (s : State) : (setGRow r s).ctx = s.ctx := rfl
@[simp] theorem setGRow_env (r : Nat) (s : State) : (setGRow r s).env = s.env := rfl
@[simp] theorem setGRow_pending (r : Nat) (s : State) : (setGRow r s).pending = s.pending := rfl
@[simp] theorem setGRow_frames (r : Nat) (s : State) : (setGRow r s).frames = s.frames := rfl
@[simp] theorem setGRow_trace (r : Nat) (s : State) : (setGRow r s).trace = s.trace := rfl

/-! ### setGCol -/

@[simp] theorem setGCol_cfg (c : Nat) (s : State) : (setGCol c s).cfg = s.cfg := rfl
@[simp] theorem setGCol_fb (c : Nat) (s : State) : (setGCol c s).fb = s.fb := rfl
@[simp] theorem setGCol_epoch (c : Nat) (s : State) : (setGCol c s).epoch = s.epoch := rfl
@[simp] theorem setGCol_pstate (c : Nat) (s : State) : (setGCol c s).pstate = s.pstate := rfl
@[simp] theorem setGCol_exec (c : Nat) (s : State) : (setGCol c s).exec = s.exec := rfl
@[simp] theorem setGCol_cs (c : Nat) (s : State) : (setGCol c s).cs = s.cs := rfl
@[simp] theorem setGCol_dc (c : Nat) (s : State) : (setGCol c s).dc = s.dc := rfl
@[simp] theorem setGCol_rst (c : Nat) (s : State) : (setGCol c s).rst = s.rst := rfl
@[simp] theorem setGCol_wflags (c : Nat) (s : State) : (setGCol c s).wflags = s.wflags := rfl
@[simp] theorem setGCol_warnlog (c : Nat) (s : State) : (setGCol c s).warnlog = s.warnlog := rfl
@[simp] theorem setGCol_traceRev (c : Nat) (s : State) : (setGCol c s).traceRev = s.traceRev := rfl
@[simp] theorem setGCol_work (c : Nat) (s : State) : (setGCol c s).work = { s.work with gCol := BitVec.ofNat 8 c } := rfl
@[simp] theorem setGCol_response (c : Nat) (s : State) : (setGCol c s).response = s.response := rfl
@[simp] theorem setGCol_busFault (c : Nat) (s : State) : (setGCol c s).busFault = s.busFault := rfl
@[simp] theorem setGCol_ctx (c : Nat) (s : State) : (setGCol c s).ctx = s.ctx := rfl
@[simp] theorem setGCol_env (c : Nat) (s : State) : (setGCol c s).env = s.env := rfl
@[simp] theorem setGCol_pending (c : Nat) (s : State) : (setGCol c s).pending = s.pending := rfl
@[simp] theorem setGCol_frames (c : Nat) (s : State) : (setGCol c s).frames = s.frames := rfl
@[simp] theorem setGCol_trace (c : Nat) (s : State) : (setGCol c s).trace = s.trace := rfl

/-! ### setCurX -/

@[simp] theorem setCurX_cfg (x : Int) (s : State) : (setCurX x s).cfg = s.cfg := rfl
@[simp] theorem setCurX_fb (x : Int) (s : State) : (setCurX x s).fb = s.fb := rfl
@[simp] theorem setCurX_epoch (x : Int) (s : State) : (setCurX x s).epoch = s.epoch := rfl
@[simp] theorem setCurX_pstate (x : Int) (s : State) : (setCurX x s).pstate = s.pstate := rfl
@[simp] theorem setCurX_exec (x : Int) (s : State) : (setCurX x s).exec = s.exec := rfl
@[simp] theorem setCurX_cs (x : Int) (s : State) : (setCurX x s).cs = s.cs := rfl
@[simp] theorem setCurX_dc (x : Int) (s : State) : (setCurX x s).dc = s.dc := rfl
@[simp] theorem setCurX_rst (x : Int) (s : State) : (setCurX x s).rst = s.rst := rfl
@[simp] theorem setCurX_wflags (x : Int) (s : State) : (setCurX x s).wflags = s.wflags := rfl
@[simp] theorem setCurX_warnlog (x : Int) (s : State) : (setCurX x s).warnlog = s.warnlog := rfl
@[simp] theorem setCurX_traceRev (x : Int) (s : State) : (setCurX x s).traceRev = s.traceRev := rfl
@[simp] theorem setCurX_work (x : Int) (s : State) : (setCurX x s).work = { s.work with curX := x } := rfl
@[simp] theorem setCurX_response (x : Int) (s : State) : (setCurX x s).response = s.response := rfl
@[simp] theorem setCurX_busFault (x : Int) (s : State) : (setCurX x s).busFault = s.busFault := rfl
@[simp] theorem setCurX_ctx (x : Int) (s : State) : (setCurX x s).ctx = s.ctx := rfl
@[simp] theorem setCurX_env (x : Int) (s : State) : (setCurX x s).env = s.env := rfl
@[simp] theorem setCurX_pending (x : Int) (s : State) : (setCurX x s).pending = s.pending := rfl
@[simp] theorem setCurX_frames (x : Int) (s : State) : (setCurX x s).frames = s.frames := rfl
@[simp] theorem setCurX_trace (x : Int) (s : State) : (setCurX x s).trace = s.trace := rfl

/-! ### setCharIdx -/

@[simp] theorem setCharIdx_cfg (k : Nat) (s : State) : (setCharIdx k s).cfg = s.cfg := rfl
@[simp] theorem setCharIdx_fb (k : Nat) (s : State) : (setCharIdx k s).fb = s.fb := rfl
@[simp] theorem setCharIdx_epoch (k : Nat) (s : State) : (setCharIdx k s).epoch = s.epoch := rfl
@[simp] theorem setCharIdx_pstate (k : Nat) (s : State) : (setCharIdx k s).pstate = s.pstate := rfl
@[simp] theorem setCharIdx_exec (k : Nat) (s : State) : (setCharIdx k s).exec = s.exec := rfl
@[simp] theorem setCharIdx_cs (k : Nat) (s : State) : (setCharIdx k s).cs = s.cs := rfl
@[simp] theorem setCharIdx_dc (k : Nat) (s : State) : (setCharIdx k s).dc = s.dc := rfl
@[simp] theorem setCharIdx_rst (k : Nat) (s : State) : (setCharIdx k s).rst = s.rst := rfl
@[simp] theorem setCharIdx_wflags (k : Nat) (s : State) : (setCharIdx k s).wflags = s.wflags := rfl
@[simp] theorem setCharIdx_warnlog (k : Nat) (s : State) : (setCharIdx k s).warnlog = s.warnlog := rfl
@[simp] theorem setCharIdx_traceRev (k : Nat) (s : State) : (setCharIdx k s).traceRev = s.traceRev := rfl
@[simp] theorem setCharIdx_work (k : Nat) (s : State) : (setCharIdx k s).work = { s.work with charIdx := k % 2 ^ s.cfg.textLenBits } := rfl
@[simp] theorem setCharIdx_response (k : Nat) (s : State) : (setCharIdx k s).response = s.response := rfl
@[simp] theorem setCharIdx_busFault (k : Nat) (s : State) : (setCharIdx k s).busFault = s.busFault := rfl
@[simp] theorem setCharIdx_ctx (k : Nat) (s : State) : (setCharIdx k s).ctx = s.ctx := rfl
@[simp] theorem setCharIdx_env (k : Nat) (s : State) : (setCharIdx k s).env = s.env := rfl
@[simp] theorem setCharIdx_pending (k : Nat) (s : State) : (setCharIdx k s).pending = s.pending := rfl
@[simp] theorem setCharIdx_frames (k : Nat) (s : State) : (setCharIdx k s).frames = s.frames := rfl
@[simp] theorem setCharIdx_trace (k : Nat) (s : State) : (setCharIdx k s).trace = s.trace := rfl

end Sys2Proof.Machine
end

