-- ==== Sys2Proof/Laws/Memory.lean ====
section
/-! SUPPORT. The framebuffer as memory: read after write, what a fill and a sequential read give, and that every
memory operation keeps the canonical form. -/

namespace Sys2Proof.Machine

namespace Memory

@[simp] theorem lookup_nil (a : Nat) : lookup [] a = none := rfl

@[simp] theorem lookup_cons (k : Nat) (v : Byte) (m : Memory) (a : Nat) :
    lookup ((k, v) :: m) a = if k = a then some v else lookup m a := rfl

/-! ### One byte -/

/-- A read after a write to the same address gives the value written. -/
@[simp] theorem lookup_write_same (m : Memory) (a : Nat) (b : Byte) : (m.write a b).lookup a = some b := by
  induction m with
  | nil => simp [write]
  | cons c m ih =>
    obtain ⟨k, v⟩ := c
    unfold write
    split
    · simp
    · split
      · simp
      · rename_i h h'
        simp [Ne.symm h', ih]

/-- A write leaves every other address alone. -/
theorem lookup_write_other (m : Memory) {a a' : Nat} (b : Byte) (h : a' ≠ a) :
    (m.write a b).lookup a' = m.lookup a' := by
  induction m with
  | nil => simp [write, Ne.symm h]
  | cons c m ih =>
    obtain ⟨k, v⟩ := c
    unfold write
    split
    · simp [Ne.symm h]
    · split
      · rename_i h1 h2; subst h2; simp [Ne.symm h]
      · simp [ih]

/-- Writing the same byte twice is writing it once. -/
theorem write_write_same (m : Memory) (a : Nat) (b : Byte) : (m.write a b).write a b = m.write a b := by
  induction m with
  | nil => simp [write]
  | cons c m ih =>
    obtain ⟨k, v⟩ := c
    by_cases h : a < k
    · simp [write, h]
    · by_cases h' : a = k
      · subst h'; simp [write]
      · simp [write, h, h', ih]

/-- The addresses listed after a write: those before and the one written. -/
theorem mem_keys_write (m : Memory) (a : Nat) (b : Byte) (k : Nat) :
    k ∈ (m.write a b).map Prod.fst ↔ k = a ∨ k ∈ m.map Prod.fst := by
  induction m with
  | nil => simp [write]
  | cons c m ih =>
    obtain ⟨k', v⟩ := c
    unfold write
    split
    · simp
    · split
      · rename_i h1 h2; subst h2; simp
      · simp only [List.map_cons, List.mem_cons, ih]; tauto

/-- A write keeps the canonical form. -/
theorem wf_write {m : Memory} (h : m.wf) (a : Nat) (b : Byte) : (m.write a b).wf := by
  induction m with
  | nil => simp [write, wf]
  | cons c m ih =>
    obtain ⟨k, v⟩ := c
    simp only [wf, List.map_cons, List.pairwise_cons] at h ih
    unfold write
    split
    · rename_i hk
      simp only [wf, List.map_cons, List.pairwise_cons, List.mem_cons]
      refine ⟨?_, h⟩
      rintro x (rfl | hx)
      · exact hk
      · exact lt_trans hk (h.1 x hx)
    · split
      · rename_i h1 h2; subst h2
        simpa only [wf, List.map_cons, List.pairwise_cons] using h
      · rename_i h1 h2
        simp only [wf, List.map_cons, List.pairwise_cons]
        refine ⟨fun x hx => ?_, ih h.2⟩
        rcases (mem_keys_write m a b x).1 hx with rfl | hx
        · omega
        · exact h.1 x hx

/-- A write at an address inside a bound keeps every listed address inside it. -/
theorem bound_write {m : Memory} {n : Nat} (h : ∀ c ∈ m, c.1 < n) {a : Nat} (ha : a < n) (b : Byte) :
    ∀ c ∈ m.write a b, c.1 < n := by
  intro c hc
  rcases (mem_keys_write m a b c.1).1 (List.mem_map_of_mem hc) with h' | h'
  · omega
  · obtain ⟨d, hd, e⟩ := List.mem_map.1 h'
    exact e ▸ h d hd

/-! ### A fill -/

theorem lookup_append (m m' : Memory) (a : Nat) : lookup (m ++ m') a = (m.lookup a).or (m'.lookup a) := by
  induction m with
  | nil => simp
  | cons c m ih =>
    obtain ⟨k, v⟩ := c
    by_cases h : k = a <;> simp [h, ih]

theorem lookup_map_pairs (l : List Nat) (f : Nat → Byte) (a : Nat) :
    lookup (l.map (fun i => (i, f i))) a = if a ∈ l then some (f a) else none := by
  induction l with
  | nil => simp
  | cons i l ih =>
    by_cases h : i = a
    · subst h; simp
    · simp [h, ih, Ne.symm h]

theorem lookup_filter_ge (m : Memory) (n a : Nat) :
    lookup (m.filter (fun c => decide (n ≤ c.1))) a = if n ≤ a then m.lookup a else none := by
  induction m with
  | nil => simp
  | cons c m ih =>
    obtain ⟨k, v⟩ := c
    by_cases hk : n ≤ k
    · by_cases h : k = a
      · subst h; simp [hk]
      · simp [hk, h, ih]
    · by_cases h : k = a
      · subst h; simp [hk, ih]
      · simp [hk, h, ih]

/-- What an address holds after a fill of `n` bytes. -/
theorem lookup_fill (n : Nat) (f : Nat → Byte) (m : Memory) (a : Nat) :
    (m.fill n f).lookup a = if a < n then some (f a) else m.lookup a := by
  rw [fill, lookup_append, lookup_map_pairs, lookup_filter_ge]
  by_cases h : a < n
  · simp [h]
  · simp [h, Nat.le_of_not_lt h]

/-- A fill keeps the canonical form. -/
theorem wf_fill {m : Memory} (h : m.wf) (n : Nat) (f : Nat → Byte) : (m.fill n f).wf := by
  have h1 : ((List.range n).map (fun i => (i, f i))).map Prod.fst = List.range n := by
    simp [Function.comp_def]
  simp only [wf, fill, List.map_append, h1, List.pairwise_append]
  refine ⟨List.pairwise_lt_range, ?_, ?_⟩
  · exact h.sublist (List.filter_sublist.map _)
  · intro x hx y hy
    obtain ⟨c, hc, rfl⟩ := List.mem_map.1 hy
    have := (List.mem_filter.1 hc).2
    simp only [decide_eq_true_eq] at this
    exact lt_of_lt_of_le (List.mem_range.1 hx) this

/-- A fill of a memory inside its bound stays inside it. -/
theorem bound_fill {m : Memory} {n : Nat} (h : ∀ c ∈ m, c.1 < n) (f : Nat → Byte) : ∀ c ∈ m.fill n f, c.1 < n := by
  intro c hc
  rcases List.mem_append.1 hc with hc | hc
  · obtain ⟨i, hi, rfl⟩ := List.mem_map.1 hc
    exact List.mem_range.1 hi
  · exact h c (List.mem_filter.1 hc).1

/-- A fill is the loop of single-byte writes it stands for, as far as any read can tell (42_framebuffer.md R130). -/
theorem lookup_fill_eq_writes (n : Nat) (f : Nat → Byte) (m : Memory) (a : Nat) :
    (m.fill n f).lookup a = ((List.range n).foldl (fun m i => m.write i (f i)) m).lookup a := by
  rw [lookup_fill]
  induction n with
  | zero => simp
  | succ n ih =>
    rw [List.range_succ, List.foldl_append, List.foldl_cons, List.foldl_nil]
    by_cases h : a = n
    · subst h; simp
    · rw [lookup_write_other _ _ h, ← ih]
      by_cases h' : a < n
      · simp [h', Nat.lt_succ_of_lt h']
      · simp [h', show ¬ a < n + 1 by omega]

/-! ### The sequential read -/

theorem lookup_eq_none_of_lt {m : Memory} {a : Nat} (h : ∀ k ∈ m.map Prod.fst, a < k) : m.lookup a = none := by
  induction m with
  | nil => rfl
  | cons c m ih =>
    obtain ⟨k, v⟩ := c
    have hk : a < k := h k (by simp)
    simp [(ne_of_lt hk).symm, ih (fun x hx => h x (by simp [hx]))]

/-- The sequential read of a canonical memory whose addresses are all from `a` on is the byte-by-byte read. -/
theorem bytesFrom_eq (free : Nat → Byte) (n a : Nat) (m : Memory) (h : m.wf) (ha : ∀ k ∈ m.map Prod.fst, a ≤ k) :
    m.bytesFrom free n a = (List.range' a n).map (fun i => (m.lookup i).getD (free i)) := by
  induction n generalizing a m with
  | zero => cases m <;> rfl
  | succ n ih =>
    cases m with
    | nil =>
      rw [bytesFrom, List.range'_succ, List.map_cons, ih (a + 1) [] h (by simp)]
      simp
    | cons c m =>
      obtain ⟨k, v⟩ := c
      simp only [wf, List.map_cons, List.pairwise_cons] at h
      rw [bytesFrom, List.range'_succ, List.map_cons]
      by_cases hk : k = a
      · subst hk
        rw [if_pos rfl, ih (k + 1) m h.2 (fun x hx => h.1 x hx)]
        simp only [lookup_cons, ↓reduceIte, Option.getD_some, List.cons.injEq, true_and]
        apply List.map_congr_left
        intro i hi
        have : k + 1 ≤ i := (List.mem_range'_1.1 hi).1
        simp [show k ≠ i by omega]
      · have hlt : a < k := lt_of_le_of_ne (ha k (by simp)) (Ne.symm hk)
        have hall : ∀ x ∈ List.map Prod.fst ((k, v) :: m), a < x := by
          intro x hx
          rcases List.mem_cons.1 hx with rfl | hx
          · exact hlt
          · exact lt_trans hlt (h.1 x hx)
        rw [if_neg hk, ih (a + 1) ((k, v) :: m) (List.pairwise_cons.2 h) (fun x hx => hall x hx),
          lookup_eq_none_of_lt hall]
        rfl

end Memory

/-- Reset lists nothing, which is canonical. -/
theorem Memory.wf_reset : State.reset.fb.wf := List.Pairwise.nil

/-! ### FB reads -/

@[simp] theorem readFb_writeFb_same (s : State) (a : Nat) (v : Byte) : (writeFb a v s).readFb a = v := by
  simp [State.readFb]

theorem readFb_writeFb_other (s : State) {a a' : Nat} (v : Byte) (h : a' ≠ a) :
    (writeFb a v s).readFb a' = s.readFb a' := by
  simp [State.readFb, Memory.lookup_write_other _ _ h]

theorem readFb_fillFb (s : State) (f : Nat → Byte) (a : Nat) :
    (fillFb f s).readFb a = if a < s.cfg.fbSize then f a else s.readFb a := by
  by_cases h : a < s.cfg.fbSize <;> simp [State.readFb, Memory.lookup_fill, h]

/-- A read looks only at the memory and at which core reset it follows. -/
theorem readFb_congr {s t : State} (hf : t.fb = s.fb) (he : t.epoch = s.epoch) : t.readFb = s.readFb := by
  funext a; simp [State.readFb, hf, he]

/-- The streamed bytes of a canonical framebuffer are its bytes in address order (20_memory.md R58). -/
theorem fbBytes_eq_payload (s : State) (h : s.fb.wf) : s.fbBytes = s.payload := by
  rw [State.fbBytes, State.payload, Memory.bytesFrom_eq _ _ _ _ h (fun _ _ => Nat.zero_le _), List.range_eq_range']
  rfl

end Sys2Proof.Machine
end

