-- ==== Sys2Proof/Laws/Ops.lean ====
section
/-! SUPPORT. What each shared operation does, said once: environment answers, Transport calls, waits, sequences,
requests, pixels. -/

namespace Sys2Proof.Machine

/-! ### Environment answers -/

@[simp] theorem Env.takeLinks_zero (e : Env) : e.takeLinks 0 = e := by simp [Env.takeLinks]

@[simp] theorem Env.takeBusys_zero (e : Env) : e.takeBusys 0 = e := by simp [Env.takeBusys]

@[simp] theorem Env.takeLinks_takeLinks (e : Env) (m n : Nat) : (e.takeLinks m).takeLinks n = e.takeLinks (m + n) := by
  simp [Env.takeLinks, Nat.add_assoc]

@[simp] theorem Env.takeBusys_takeBusys (e : Env) (m n : Nat) : (e.takeBusys m).takeBusys n = e.takeBusys (m + n) := by
  simp [Env.takeBusys, Nat.add_assoc]

/-- A LINKFAULT answer depends on the link layer's schedule alone. -/
theorem linkAnswer_congr {s t : State} (h : t.env.linkAnswers = s.env.linkAnswers)
    (h' : t.env.linkTaken = s.env.linkTaken) (k : Nat) : t.linkAnswer k = s.linkAnswer k := by
  simp [State.linkAnswer, h, h']

/-- A BUSY answer depends on the panel's schedule alone. -/
theorem busyAnswer_congr {s t : State} (h : t.env.busyAnswers = s.env.busyAnswers)
    (h' : t.env.busyTaken = s.env.busyTaken) (k : Nat) : t.busyAnswer k = s.busyAnswer k := by
  simp [State.busyAnswer, h, h']

/-- After `n` transfers the answers still to come are those from the `n`-th on. -/
theorem linkAnswer_takeLinks {s t : State} {n : Nat} (h : t.env = s.env.takeLinks n) (k : Nat) :
    t.linkAnswer k = s.linkAnswer (n + k) := by
  simp [State.linkAnswer, h, Env.takeLinks, Nat.add_assoc]

/-- After `n` samples the answers still to come are those from the `n`-th on. -/
theorem busyAnswer_takeBusys {s t : State} {n : Nat} (h : t.env = s.env.takeBusys n) (k : Nat) :
    t.busyAnswer k = s.busyAnswer (n + k) := by
  simp [State.busyAnswer, h, Env.takeBusys, Nat.add_assoc]

theorem linkClear_takeLinks {s t : State} {n m : Nat} (h : t.env = s.env.takeLinks n) (hs : s.linkClear (n + m)) :
    t.linkClear m := fun k hk => by
  rw [linkAnswer_takeLinks h]; exact hs _ (by omega)

theorem linkClear_mono {s : State} {m n : Nat} (h : s.linkClear n) (hm : m ≤ n) : s.linkClear m :=
  fun k hk => h k (by omega)

/-! ### Transport calls -/

/-- A transfer the link layer lets through. -/
theorem xfer_ok (call : TransportCall) (bytes : List Byte) (s : State) (h : s.linkAnswer 0 = 0#1) :
    xfer call bytes s = driveCs s.cfg.csIdleLevel (emit (.xfer bytes) (takeLink (driveCs s.cfg.csActiveLevel s))) := by
  have h1 : ¬ (driveCs s.cfg.csActiveLevel s).linkAnswer 0 = 1#1 := by
    rw [show (driveCs s.cfg.csActiveLevel s).linkAnswer 0 = s.linkAnswer 0 from rfl, h]; decide
  exact if_neg h1

/-- A transfer for which the link layer reports a failure. -/
theorem xfer_fault (call : TransportCall) (bytes : List Byte) (s : State) (h : s.linkAnswer 0 = 1#1) :
    xfer call bytes s = raiseBusFault call (takeLink (driveCs s.cfg.csActiveLevel s)) :=
  if_pos (show (driveCs s.cfg.csActiveLevel s).linkAnswer 0 = 1#1 from h)

/-- A Transport call the link layer lets through: four events, the lines as they end, one answer taken. -/
theorem transport_ok (call : TransportCall) (level : Level) (bytes : List Byte) (s : State)
    (hp : s.pstate ≠ .halted) (h : s.linkAnswer 0 = 0#1) :
    transport call level bytes s =
      { s with dc := level, cs := s.cfg.csIdleLevel,
               traceRev := .cs s.cfg.csIdleLevel :: .xfer bytes :: .cs s.cfg.csActiveLevel :: .dc level :: s.traceRev,
               env := s.env.takeLinks 1, ctx := { s.ctx with calls := s.ctx.calls + 1 } } := by
  have hx := xfer_ok call bytes (driveDc level s) h
  unfold transport
  rw [hx, if_neg (by simpa using hp)]
  simp [countCall, driveCs, driveDc, emit, takeLink, Env.takeLinks]

/-- A Transport call for which the link layer reports a failure (60_exceptions.md R161). -/
theorem transport_fault (call : TransportCall) (level : Level) (bytes : List Byte) (s : State)
    (h : s.linkAnswer 0 = 1#1) :
    transport call level bytes s =
      { s with dc := level, cs := s.cfg.csActiveLevel, pstate := .halted,
               busFault := some ⟨s.ctx.operation, s.ctx.calls, call⟩,
               traceRev := .cs s.cfg.csActiveLevel :: .dc level :: s.traceRev, env := s.env.takeLinks 1 } := by
  have hx := xfer_fault call bytes (driveDc level s) h
  unfold transport
  rw [hx, if_pos (by simp)]
  simp [raiseBusFault, driveCs, driveDc, emit, takeLink, Env.takeLinks]

/-- A level is 0 or 1. -/
theorem level_cases (v : Level) : v = 0#1 ∨ v = 1#1 := by
  rcases BitVec.eq_zero_or_eq_one v with h | h
  · exact .inl h
  · exact .inr h

theorem csIdle_ne_active (c : Config) : c.csIdleLevel ≠ c.csActiveLevel := by
  unfold Config.csIdleLevel
  rcases level_cases c.csActiveLevel with h | h <;> rw [h] <;> decide

/-- SENDDATABLOCK that the link layer lets through. -/
theorem sendDataBlock_ok (bytes : List Byte) (s : State) (hp : s.pstate ≠ .halted) (h : s.linkAnswer 0 = 0#1) :
    sendDataBlock bytes s =
      { s with dc := 1#1, cs := s.cfg.csIdleLevel,
               traceRev := .cs s.cfg.csIdleLevel :: .xfer bytes :: .cs s.cfg.csActiveLevel :: .dc 1#1 :: s.traceRev,
               work := { s.work with streamIdx := bytes.length },
               env := s.env.takeLinks 1, ctx := { s.ctx with calls := s.ctx.calls + 1 } } := by
  have hx := transport_ok .sendDataBlock 1#1 bytes (setStreamIdx 0 s) hp h
  unfold sendDataBlock
  rw [hx, if_neg (by simpa using hp)]
  rfl

/-- SENDDATABLOCK for which the link layer reports a failure. -/
theorem sendDataBlock_fault (bytes : List Byte) (s : State) (h : s.linkAnswer 0 = 1#1) :
    sendDataBlock bytes s =
      { s with dc := 1#1, cs := s.cfg.csActiveLevel, pstate := .halted,
               busFault := some ⟨s.ctx.operation, s.ctx.calls, .sendDataBlock⟩, work := { s.work with streamIdx := 0 },
               traceRev := .cs s.cfg.csActiveLevel :: .dc 1#1 :: s.traceRev, env := s.env.takeLinks 1 } := by
  have hx := transport_fault .sendDataBlock 1#1 bytes (setStreamIdx 0 s) h
  unfold sendDataBlock
  rw [hx, if_pos rfl]
  rfl

/-! ### Waiting -/

/-- One iteration of the poll loop on a busy sample. -/
theorem pollLoop_busy (site : WaitSite) (n : Nat) (s : State) (h : s.busyAnswer 0 = s.cfg.busyActiveLevel) :
    pollLoop site (n + 1) s =
      pollLoop site n (delayMs s.cfg.busyPollIntervalMs (setPollCnt (s.work.pollCnt + 1) (sampleBusy s))) := by
  simp [pollLoop, h]

/-- The last iteration: a released sample. -/
theorem pollLoop_released (site : WaitSite) (n : Nat) (s : State) (h : s.busyAnswer 0 ≠ s.cfg.busyActiveLevel) :
    pollLoop site (n + 1) s = setPollCnt (s.work.pollCnt + 1) (sampleBusy s) := by
  simp [pollLoop, h]

/-- What a wait does, whatever the panel answers: it only samples, delays, counts and perhaps warns once
(41_panel_protocol.md R105). -/
structure WaitEffect (site : WaitSite) (n : Nat) (s t : State) : Prop where
  frame : t = { s with traceRev := t.traceRev, warnlog := t.warnlog, wflags := t.wflags,
                       work := { s.work with pollCnt := t.work.pollCnt, delayTmr := t.work.delayTmr },
                       env := { s.env with busyAnswers := t.env.busyAnswers, busyTaken := t.env.busyTaken } }
  events : ∃ es, t.trace = s.trace ++ es ∧ es.all Event.isWait = true ∧ totalDelay es ≤ n * s.cfg.busyPollIntervalMs
  warns : t.warnlog = s.warnlog ∧ t.wflags = s.wflags ∨
    t.warnlog = s.warnlog ++ [.busyTimeout site] ∧ t.wflags = { s.wflags with busyTimeout := true }

theorem pollLoop_effect (site : WaitSite) (n : Nat) (s : State) : WaitEffect site n s (pollLoop site n s) := by
  induction n generalizing s with
  | zero => exact ⟨rfl, ⟨[], by simp [pollLoop], rfl, by simp [totalDelay]⟩, .inr ⟨rfl, rfl⟩⟩
  | succ n ih =>
    by_cases h : s.busyAnswer 0 = s.cfg.busyActiveLevel
    · rw [pollLoop_busy site n s h]
      obtain ⟨f, ⟨es, ht, hw, hd⟩, w⟩ :=
        ih (delayMs s.cfg.busyPollIntervalMs (setPollCnt (s.work.pollCnt + 1) (sampleBusy s)))
      refine ⟨?_, ⟨.busy (s.busyAnswer 0) :: .delay s.cfg.busyPollIntervalMs :: es, ?_, ?_, ?_⟩, ?_⟩
      · rw [f]; rfl
      · rw [ht]; simp
      · simpa [Event.isWait] using hw
      · simp only [totalDelay, Nat.succ_mul]
        have : (delayMs s.cfg.busyPollIntervalMs (setPollCnt (s.work.pollCnt + 1) (sampleBusy s))).cfg = s.cfg := rfl
        rw [this] at hd; omega
      · simpa using w
    · rw [pollLoop_released site n s h]
      refine ⟨rfl, ⟨[.busy (s.busyAnswer 0)], by simp, by simp [Event.isWait], by simp [totalDelay]⟩, .inl ⟨rfl, rfl⟩⟩

theorem waitBusy_effect (site : WaitSite) (s : State) : WaitEffect site s.cfg.busyPollMax s (waitBusy site s) := by
  obtain ⟨f, ⟨es, ht, hw, hd⟩, w⟩ := pollLoop_effect site s.cfg.busyPollMax (setPollCnt 0 s)
  exact ⟨by rw [waitBusy, f]; rfl, ⟨es, ht, hw, hd⟩, w⟩

/-! ### Sequences -/

@[simp] theorem runActs_nil (s : State) : runActs [] s = s := rfl

theorem runActs_cons (a : Act) (as : List Act) (s : State) (h : s.pstate ≠ .halted) :
    runActs (a :: as) s = runActs as (runAct a s) := by simp [runActs, h]

/-- In Halted nothing more happens. -/
theorem runActs_halted (as : List Act) (s : State) (h : s.pstate = .halted) : runActs as s = s := by
  cases as <;> simp [runActs, h]

/-- A sequence is its parts one after another. -/
theorem runActs_append (as bs : List Act) (s : State) : runActs (as ++ bs) s = runActs bs (runActs as s) := by
  induction as generalizing s with
  | nil => rfl
  | cons a as ih =>
    by_cases h : s.pstate = .halted
    · simp [runActs_halted _ _ h]
    · rw [List.cons_append, runActs_cons _ _ _ h, runActs_cons _ _ _ h, ih]

/-! ### Requests -/

/-- `req_ready` is 1 exactly when the first two checks of a request pass (30_encoding.md R75). -/
theorem reqReady_iff_admission (s : State) : s.reqReady = true ↔ s.admission = none := by
  unfold State.reqReady State.admission
  by_cases h : s.pstate = .halted <;> by_cases h' : s.exec = true <;> simp [h, h']

/-- A request that is not refused is admitted, passes its own check and a legal configuration, and runs its body. -/
theorem request_next {op : Operation} {check : Option Refusal} {body : State → State} {s t : State}
    (h : request op check body s = .next t) :
    s.pstate ≠ .halted ∧ s.exec = false ∧ check = none ∧ s.cfg.wf = true ∧
      t = complete s.warnlog.length (body (accept op s)) := by
  unfold request State.admission State.configCheck at h
  cases check <;> by_cases h1 : s.pstate = .halted <;> by_cases h2 : s.exec = true <;>
    by_cases h3 : s.cfg.wf = true <;> simp_all

/-- A request that nothing refuses runs its body. -/
theorem request_ready (op : Operation) (body : State → State) (s : State) (h : s.ready) :
    request op none body s = .next (complete s.warnlog.length (body (accept op s))) := by
  obtain ⟨h1, h2, h3⟩ := h
  simp [request, State.admission, State.configCheck, h1, h2, h3]

/-- A request in Halted is refused. -/
theorem request_halted (op : Operation) (check : Option Refusal) (body : State → State) (s : State)
    (h : s.pstate = .halted) : request op check body s = .refused .halted := by
  simp [request, State.admission, h]

/-- A request during an operation is refused. -/
theorem request_busy (op : Operation) (check : Option Refusal) (body : State → State) (s : State)
    (h : s.pstate ≠ .halted) (h' : s.exec = true) : request op check body s = .refused .operationInProgress := by
  simp [request, State.admission, h, h']

/-- An internal sequence that is performed runs its statements. -/
theorem internal_next {acts : List Act} {s t : State} (h : internal acts s = .next t) :
    s.pstate ≠ .halted ∧ s.cfg.wf = true ∧ t = runActs acts s := by
  unfold internal at h
  by_cases h1 : s.pstate = .halted <;> by_cases h2 : s.cfg.wf = true <;> simp_all

theorem internal_ok (acts : List Act) (s : State) (h : s.pstate ≠ .halted) (h' : s.cfg.wf = true) :
    internal acts s = .next (runActs acts s) := by simp [internal, h, h']

/-- Every panel command's instruction is its sequence as an internal step. -/
theorem exec_panel (k : PanelCommand) (s : State) : exec k.instr s = internal (panelActs s.cfg k) s := by
  cases k <;> rfl

/-- Completing an operation no fault ended. -/
theorem complete_ok (n : Nat) (s : State) (h : s.pstate ≠ .halted) :
    complete n s = { s with exec := false, response := some (s.warnlog.drop n), ctx := ⟨none, 0⟩ } := by
  simp [complete, h]

theorem complete_halted (n : Nat) (s : State) (h : s.pstate = .halted) : complete n s = s := by simp [complete, h]

/-! ### Pixels -/

/-- PLOT writes the transformed pixel or nothing. -/
theorem plot_cases (lx ly : Int) (color : Byte) (s : State) :
    onCanvas s.cfg lx ly ∧
      plot lx ly color s = pixelWrite (((s.cfg.ramWidth : Int) - 1) - ly).toNat lx.toNat (color != s.cfg.black) s ∨
    ¬ onCanvas s.cfg lx ly ∧ plot lx ly color s = s := by
  unfold plot onCanvas ramXOf ramYOf Config.logicalHeight Config.logicalWidth
  by_cases h : (ly < (s.cfg.ramWidth : Int) ∧ lx < (s.cfg.ramHeight : Int))
  · by_cases h' : 0 ≤ (s.cfg.ramWidth : Int) - 1 - ly ∧ (s.cfg.ramWidth : Int) - 1 - ly < (s.cfg.ramWidth : Int) ∧
        0 ≤ lx ∧ lx < (s.cfg.ramHeight : Int)
    · left
      refine ⟨by omega, ?_⟩
      rw [if_neg (not_not.2 h)]; exact if_neg (not_not.2 h')
    · right
      refine ⟨by omega, ?_⟩
      rw [if_neg (not_not.2 h)]; exact if_pos h'
  · right
    refine ⟨by omega, ?_⟩
    exact if_pos h

/-- A RAM pixel's byte lies inside FB (20_memory.md R40). -/
theorem byteIndex_lt (cfg : Config) {ramX ramY : Nat} (hx : ramX < cfg.ramWidth) (hy : ramY < cfg.ramHeight) :
    byteIndex cfg ramX ramY < cfg.fbSize := by
  unfold byteIndex Config.fbSize
  have h1 : ramX / 8 < cfg.rowStride := by unfold Config.rowStride; omega
  calc ramY * cfg.rowStride + ramX / 8 < ramY * cfg.rowStride + cfg.rowStride := by omega
    _ = (ramY + 1) * cfg.rowStride := by ring
    _ ≤ cfg.ramHeight * cfg.rowStride := Nat.mul_le_mul_right _ hy
    _ = cfg.rowStride * cfg.ramHeight := Nat.mul_comm _ _

end Sys2Proof.Machine
end

