-- ==== Sys2Proof/Laws/PerInstr.lean ====
section
/-! SUPPORT. The family `EncodesInFormat`: every instruction's words have the fixed bits of its row of
spec/opcode_table.json. -/

namespace Sys2Proof.Laws

/-- The selector of a host operation (30_encoding.md R76); the other instructions are wire frames. -/
def EncodesInFormat.selector : Instr → Option Nat
  | .initPanel                => some 0
  | .clear _                  => some 1
  | .display                  => some 2
  | .drawText _ _ _ _ _       => some 3
  | .fillPattern              => some 4
  | .fillCheckerboard         => some 5
  | .sendCommand _            => none
  | .sendData _               => none
  | .sendDataBlock _          => none
  | .cmdSwReset               => none
  | .cmdDriverOutputControl   => none
  | .cmdDataEntryMode         => none
  | .cmdSetRamXWindow         => none
  | .cmdSetRamYWindow         => none
  | .cmdBorderWaveform        => none
  | .cmdTempSensor            => none
  | .cmdDisplayUpdateControl1 => none
  | .cmdSetRamXCounter        => none
  | .cmdSetRamYCounter        => none
  | .cmdWriteRamBw            => none
  | .cmdDisplayUpdateControl2 => none
  | .cmdMasterActivation      => none

/-- Bit 8 of a frame's symbols: 1 for the two data formats, 0 for a command (30_encoding.md R60). -/
def EncodesInFormat.select : Instr → Level
  | .initPanel                => 0#1
  | .clear _                  => 0#1
  | .display                  => 0#1
  | .drawText _ _ _ _ _       => 0#1
  | .fillPattern              => 0#1
  | .fillCheckerboard         => 0#1
  | .sendCommand _            => 0#1
  | .sendData _               => 1#1
  | .sendDataBlock _          => 1#1
  | .cmdSwReset               => 0#1
  | .cmdDriverOutputControl   => 0#1
  | .cmdDataEntryMode         => 0#1
  | .cmdSetRamXWindow         => 0#1
  | .cmdSetRamYWindow         => 0#1
  | .cmdBorderWaveform        => 0#1
  | .cmdTempSensor            => 0#1
  | .cmdDisplayUpdateControl1 => 0#1
  | .cmdSetRamXCounter        => 0#1
  | .cmdSetRamYCounter        => 0#1
  | .cmdWriteRamBw            => 0#1
  | .cmdDisplayUpdateControl2 => 0#1
  | .cmdMasterActivation      => 0#1

/-- A host operation encodes to a request with its selector and with the reserved bits zero (R77, R80), a sequence to
a frame whose symbols all have its select bit (R60). -/
def EncodesInFormat.Statement (i : Instr) : Prop :=
  ∀ cfg : Config,
    match EncodesInFormat.selector i, encode cfg i with
    | some n, .request d _ _  => d.op.toNat = n ∧ d.reserved = 0#3
    | none, .frame symbols    => ∀ x ∈ symbols, x.dc = EncodesInFormat.select i
    | some _, .frame _        => False
    | none, .request _ _ _    => False

theorem EncodesInFormat.initPanel : EncodesInFormat.Statement .initPanel := fun _ => by
  simp [EncodesInFormat.selector, encode]
theorem EncodesInFormat.clear (fill : Byte) : EncodesInFormat.Statement (.clear fill) := fun _ => by
  simp [EncodesInFormat.selector, encode]
theorem EncodesInFormat.display : EncodesInFormat.Statement .display := fun _ => by
  simp [EncodesInFormat.selector, encode]
theorem EncodesInFormat.drawText (x y : Int) (text : List Byte) (glyphs : Option GlyphSource) (color : Byte) :
    EncodesInFormat.Statement (.drawText x y text glyphs color) := fun _ => by
  simp [EncodesInFormat.selector, encode]
theorem EncodesInFormat.fillPattern : EncodesInFormat.Statement .fillPattern := fun _ => by
  simp [EncodesInFormat.selector, encode]
theorem EncodesInFormat.fillCheckerboard : EncodesInFormat.Statement .fillCheckerboard := fun _ => by
  simp [EncodesInFormat.selector, encode]
theorem EncodesInFormat.sendCommand (c : Byte) : EncodesInFormat.Statement (.sendCommand c) := fun _ => by
  simp [EncodesInFormat.selector, EncodesInFormat.select, encode]
theorem EncodesInFormat.sendData (d : Byte) : EncodesInFormat.Statement (.sendData d) := fun _ => by
  simp [EncodesInFormat.selector, EncodesInFormat.select, encode]
theorem EncodesInFormat.sendDataBlock (bytes : List Byte) : EncodesInFormat.Statement (.sendDataBlock bytes) := fun _ => by
  simp [EncodesInFormat.selector, EncodesInFormat.select, encode]
theorem EncodesInFormat.cmdSwReset : EncodesInFormat.Statement .cmdSwReset := fun _ => by
  simp [EncodesInFormat.selector, EncodesInFormat.select, encode, encodeCommand]
theorem EncodesInFormat.cmdDriverOutputControl : EncodesInFormat.Statement .cmdDriverOutputControl := fun _ => by
  simp [EncodesInFormat.selector, EncodesInFormat.select, encode, encodeCommand]
theorem EncodesInFormat.cmdDataEntryMode : EncodesInFormat.Statement .cmdDataEntryMode := fun _ => by
  simp [EncodesInFormat.selector, EncodesInFormat.select, encode, encodeCommand]
theorem EncodesInFormat.cmdSetRamXWindow : EncodesInFormat.Statement .cmdSetRamXWindow := fun _ => by
  simp [EncodesInFormat.selector, EncodesInFormat.select, encode, encodeCommand]
theorem EncodesInFormat.cmdSetRamYWindow : EncodesInFormat.Statement .cmdSetRamYWindow := fun _ => by
  simp [EncodesInFormat.selector, EncodesInFormat.select, encode, encodeCommand]
theorem EncodesInFormat.cmdBorderWaveform : EncodesInFormat.Statement .cmdBorderWaveform := fun _ => by
  simp [EncodesInFormat.selector, EncodesInFormat.select, encode, encodeCommand]
theorem EncodesInFormat.cmdTempSensor : EncodesInFormat.Statement .cmdTempSensor := fun _ => by
  simp [EncodesInFormat.selector, EncodesInFormat.select, encode, encodeCommand]
theorem EncodesInFormat.cmdDisplayUpdateControl1 : EncodesInFormat.Statement .cmdDisplayUpdateControl1 := fun _ => by
  simp [EncodesInFormat.selector, EncodesInFormat.select, encode, encodeCommand]
theorem EncodesInFormat.cmdSetRamXCounter : EncodesInFormat.Statement .cmdSetRamXCounter := fun _ => by
  simp [EncodesInFormat.selector, EncodesInFormat.select, encode, encodeCommand]
theorem EncodesInFormat.cmdSetRamYCounter : EncodesInFormat.Statement .cmdSetRamYCounter := fun _ => by
  simp [EncodesInFormat.selector, EncodesInFormat.select, encode, encodeCommand]
theorem EncodesInFormat.cmdWriteRamBw : EncodesInFormat.Statement .cmdWriteRamBw := fun _ => by
  simp [EncodesInFormat.selector, EncodesInFormat.select, encode, encodeCommand]
theorem EncodesInFormat.cmdDisplayUpdateControl2 : EncodesInFormat.Statement .cmdDisplayUpdateControl2 := fun _ => by
  simp [EncodesInFormat.selector, EncodesInFormat.select, encode, encodeCommand]
theorem EncodesInFormat.cmdMasterActivation : EncodesInFormat.Statement .cmdMasterActivation := fun _ => by
  simp [EncodesInFormat.selector, EncodesInFormat.select, encode, encodeCommand]

end Sys2Proof.Laws
end

