-- ==== Sys2Proof/Laws/Pixels.lean ====
section
/-! SUPPORT. Framebuffer addressing under a legal configuration, the bit of a mask, and what one pixel write does to the
bytes and to the pixels. -/

namespace Sys2Proof

/-- What a legal configuration says, bound by bound. -/
theorem Config.wf_bounds {cfg : Config} (h : cfg.wf = true) :
    8 ≤ cfg.ramWidth ∧ cfg.ramWidth % 8 = 0 ∧ 1 ≤ cfg.ramHeight ∧ cfg.ramHeight ≤ 65536 ∧
      cfg.ramWidth / 8 - 1 ≤ 255 ∧ 1 ≤ cfg.busyPollMax ∧ 1 ≤ cfg.stripePeriod ∧ 1 ≤ cfg.checkerBlockRows ∧
      cfg.borderWaveformData ≠ [] ∧ cfg.tempSensorData ≠ [] ∧ cfg.duc1Data ≠ [] ∧
      1 ≤ cfg.coordBits ∧ cfg.coordBits ≤ 16 ∧ 1 ≤ cfg.textLenBits ∧ cfg.textLenBits ≤ 16 := by
  simpa [Config.wf, and_assoc] using h

/-- A RAM row is a whole number of bytes. -/
theorem Config.ramWidth_eq {cfg : Config} (h : cfg.wf = true) : cfg.ramWidth = 8 * cfg.rowStride := by
  have := Config.wf_bounds h
  unfold Config.rowStride
  omega

namespace Machine

/-- The row of a pixel's byte. -/
theorem byteIndex_div {cfg : Config} (h : cfg.wf = true) {x : Nat} (y : Nat) (hx : x < cfg.ramWidth) :
    byteIndex cfg x y / cfg.rowStride = y := by
  have := Config.ramWidth_eq h
  unfold byteIndex
  rw [Nat.mul_comm, Nat.mul_add_div (by omega), Nat.div_eq_of_lt (a := x / 8) (by omega), Nat.add_zero]

/-- The column of a pixel's byte. -/
theorem byteIndex_mod {cfg : Config} (h : cfg.wf = true) {x : Nat} (y : Nat) (hx : x < cfg.ramWidth) :
    byteIndex cfg x y % cfg.rowStride = x / 8 := by
  have := Config.ramWidth_eq h
  unfold byteIndex
  rw [Nat.mul_comm, Nat.mul_add_mod, Nat.mod_eq_of_lt (by omega)]

/-- A byte of FB by its row and column. -/
theorem byte_at {cfg : Config} {r c : Nat} (hr : r < cfg.ramHeight) (hc : c < cfg.rowStride) :
    r * cfg.rowStride + c < cfg.fbSize ∧ (r * cfg.rowStride + c) / cfg.rowStride = r ∧
      (r * cfg.rowStride + c) % cfg.rowStride = c := by
  refine ⟨?_, ?_, ?_⟩
  · unfold Config.fbSize
    calc r * cfg.rowStride + c < (r + 1) * cfg.rowStride := by rw [Nat.succ_mul]; omega
      _ ≤ cfg.ramHeight * cfg.rowStride := Nat.mul_le_mul_right _ hr
      _ = _ := Nat.mul_comm _ _
  · rw [Nat.mul_comm, Nat.mul_add_div (by omega), Nat.div_eq_of_lt hc, Nat.add_zero]
  · rw [Nat.mul_comm, Nat.mul_add_mod, Nat.mod_eq_of_lt hc]

/-- `mask(k)` has the one bit `7 - (k mod 8)` (00_scope.md R7). -/
theorem mask_getLsbD (k b : Nat) (hb : b < 8) : (mask k).getLsbD b = decide (b = 7 - k % 8) := by
  unfold mask
  have : k % 8 < 8 := Nat.mod_lt _ (by omega)
  interval_cases k % 8 <;> interval_cases b <;> decide

/-- The byte a pixel write stores. -/
theorem readFb_pixelWrite_same (s : State) (x y : Nat) (v : Bool) :
    (pixelWrite x y v s).readFb (byteIndex s.cfg x y) =
      if v then s.readFb (byteIndex s.cfg x y) ||| mask x else s.readFb (byteIndex s.cfg x y) &&& ~~~ mask x := by
  unfold pixelWrite
  exact readFb_writeFb_same _ _ _

/-- Every other byte stays. -/
theorem readFb_pixelWrite_other (s : State) (x y : Nat) (v : Bool) {a : Nat} (h : a ≠ byteIndex s.cfg x y) :
    (pixelWrite x y v s).readFb a = s.readFb a := by
  unfold pixelWrite
  exact readFb_writeFb_other _ _ h

/-- The pixel a pixel write sets. -/
theorem pixel_pixelWrite_same (s : State) (x y : Nat) (v : Bool) : (pixelWrite x y v s).pixel x y = v := by
  have hb : bitNumber x < 8 := by unfold bitNumber; omega
  have hm : (mask x).getLsbD (bitNumber x) = true := by rw [mask_getLsbD _ _ hb]; simp [bitNumber]
  unfold State.pixel
  rw [show (pixelWrite x y v s).cfg = s.cfg from rfl, readFb_pixelWrite_same]
  cases v
  · simp only [Bool.false_eq_true, if_false, BitVec.getLsbD_and, BitVec.getLsbD_not, hm]; simp
  · simp only [if_true, BitVec.getLsbD_or, hm]; simp

/-- Every other pixel stays. -/
theorem pixel_pixelWrite_other (s : State) {x y x' y' : Nat} (v : Bool) (hwf : s.cfg.wf = true)
    (hx : x < s.cfg.ramWidth) (hx' : x' < s.cfg.ramWidth) (hne : x' ≠ x ∨ y' ≠ y) :
    (pixelWrite x y v s).pixel x' y' = s.pixel x' y' := by
  unfold State.pixel
  rw [show (pixelWrite x y v s).cfg = s.cfg from rfl]
  by_cases hi : byteIndex s.cfg x' y' = byteIndex s.cfg x y
  · have h1 := byteIndex_div hwf y' hx'
    have h2 := byteIndex_mod hwf y' hx'
    rw [hi, byteIndex_div hwf y hx] at h1
    rw [hi, byteIndex_mod hwf y hx] at h2
    have hb : bitNumber x' < 8 := by unfold bitNumber; omega
    have hn : ¬ bitNumber x' = 7 - x % 8 := by unfold bitNumber; omega
    have hm : (mask x).getLsbD (bitNumber x') = false := by rw [mask_getLsbD _ _ hb]; simpa using hn
    rw [hi, readFb_pixelWrite_same]
    cases v
    · simp only [Bool.false_eq_true, if_false, BitVec.getLsbD_and, BitVec.getLsbD_not, hm]; simp [hb]
    · simp only [if_true, BitVec.getLsbD_or, hm]; simp
  · rw [readFb_pixelWrite_other _ _ _ _ hi]

end Machine

end Sys2Proof
end

