-- ==== Sys2Proof/Laws/Rasterizer.lean ====
section
/-! SUPPORT. What the rasterizer's operations do: plotting, one position, one cell, one character, the text loop. -/

namespace Sys2Proof.Machine

/-- `t` differs from `s` in the framebuffer, the working registers of DRAWTEXT and the warnings alone. -/
def DrawFrame (s t : State) : Prop :=
  t = { s with fb := t.fb,
               work := { s.work with curX := t.work.curX, charIdx := t.work.charIdx, gRow := t.work.gRow,
                                     gCol := t.work.gCol },
               warnlog := t.warnlog, wflags := t.wflags }

theorem DrawFrame.refl (s : State) : DrawFrame s s := rfl

theorem DrawFrame.trans {s t u : State} (h : DrawFrame s t) (h' : DrawFrame t u) : DrawFrame s u := by
  unfold DrawFrame at *
  rw [h']
  conv_lhs => rw [h]

theorem DrawFrame.cfg {s t : State} (h : DrawFrame s t) : t.cfg = s.cfg := by unfold DrawFrame at h; rw [h]

/-- The framebuffer is canonical and inside its bounds. -/
structure FbOk (s : State) : Prop where
  wf : s.fb.wf
  inRange : ∀ c ∈ s.fb, c.1 < s.cfg.fbSize

/-- What no drawing step does: move the cursor, count characters, warn, touch a byte outside FB, break its form. -/
structure PaintEffect (s t : State) : Prop where
  frame : DrawFrame s t
  curX : t.work.curX = s.work.curX
  charIdx : t.work.charIdx = s.work.charIdx
  warnlog : t.warnlog = s.warnlog
  wflags : t.wflags = s.wflags
  outside : ∀ i, s.cfg.fbSize ≤ i → t.readFb i = s.readFb i
  fbOk : FbOk s → FbOk t

theorem PaintEffect.refl (s : State) : PaintEffect s s := ⟨rfl, rfl, rfl, rfl, rfl, fun _ _ => rfl, fun h => h⟩

theorem PaintEffect.trans {s t u : State} (h : PaintEffect s t) (h' : PaintEffect t u) : PaintEffect s u where
  frame := h.frame.trans h'.frame
  curX := h'.curX.trans h.curX
  charIdx := h'.charIdx.trans h.charIdx
  warnlog := h'.warnlog.trans h.warnlog
  wflags := h'.wflags.trans h.wflags
  outside i hi := (h'.outside i (by rw [h.frame.cfg]; exact hi)).trans (h.outside i hi)
  fbOk hs := h'.fbOk (h.fbOk hs)

theorem plot_effect (lx ly : Int) (c : Byte) (s : State) : PaintEffect s (plot lx ly c s) := by
  rcases plot_cases lx ly c s with ⟨ho, h⟩ | ⟨_, h⟩ <;> rw [h]
  · unfold onCanvas Config.logicalWidth Config.logicalHeight at ho
    have hlt := byteIndex_lt s.cfg (ramX := (((s.cfg.ramWidth : Int) - 1) - ly).toNat) (ramY := lx.toNat)
      (by omega) (by omega)
    exact ⟨rfl, rfl, rfl, rfl, rfl, fun i hi => readFb_pixelWrite_other _ _ _ _ (by omega),
      fun h => ⟨Memory.wf_write h.wf _ _, Memory.bound_write h.inRange hlt _⟩⟩
  · exact .refl s

theorem setGRow_effect (r : Nat) (s : State) : PaintEffect s (setGRow r s) :=
  ⟨rfl, rfl, rfl, rfl, rfl, fun _ _ => rfl, fun h => ⟨h.1, h.2⟩⟩

theorem setGCol_effect (c : Nat) (s : State) : PaintEffect s (setGCol c s) :=
  ⟨rfl, rfl, rfl, rfl, rfl, fun _ _ => rfl, fun h => ⟨h.1, h.2⟩⟩

/-- A loop of steps that each have the effect has it. -/
theorem PaintEffect.foldl {f : State → Nat → State} (h : ∀ s k, PaintEffect s (f s k)) (l : List Nat) (s : State) :
    PaintEffect s (l.foldl f s) := by
  induction l generalizing s with
  | nil => exact .refl s
  | cons k l ih => exact (h s k).trans (ih _)

theorem drawPosition_effect (gs : GlyphSource) (code : Byte) (y : Int) (c : Byte) (row : Nat) (s : State) (col : Nat) :
    PaintEffect s (drawPosition gs code y c row s col) := by
  unfold drawPosition
  simp only
  split
  · exact (setGCol_effect col s).trans (plot_effect _ _ _ _)
  · exact setGCol_effect col s

theorem drawRow_effect (gs : GlyphSource) (code : Byte) (y : Int) (c : Byte) (s : State) (row : Nat) :
    PaintEffect s (drawRow gs code y c s row) :=
  (setGRow_effect row s).trans (.foldl (drawPosition_effect gs code y c row) _ _)

theorem drawCell_effect (gs : GlyphSource) (code : Byte) (y : Int) (c : Byte) (s : State) :
    PaintEffect s (drawCell gs code y c s) := .foldl (drawRow_effect gs code y c) _ s

/-- What the text loop does beside the pixels: the cursor, the warnings in order, the sticky flag. -/
structure TextEffect (gs : GlyphSource) (index : Nat) (text : List Byte) (s t : State) : Prop where
  frame : DrawFrame s t
  curX : t.work.curX = s.work.curX + ((text.countP gs.supports * gs.cellWidth.toNat : Nat) : Int)
  warnlog : t.warnlog = s.warnlog ++ skipWarnings gs index text
  wflags : t.wflags =
    { s.wflags with glyphSkipped := s.wflags.glyphSkipped || text.any (fun code => !gs.supports code) }
  outside : ∀ i, s.cfg.fbSize ≤ i → t.readFb i = s.readFb i
  fbOk : FbOk s → FbOk t

theorem drawChar_effect (gs : GlyphSource) (y : Int) (c : Byte) (index : Nat) (code : Byte) (s : State) :
    TextEffect gs index [code] s (drawChar gs y c index code s) := by
  unfold drawChar
  simp only
  split
  · rename_i h
    have e := drawCell_effect gs code y c (setCharIdx index s)
    have f : DrawFrame s (setCharIdx index s) := rfl
    have g : ∀ (v : Int) (u : State), DrawFrame u (setCurX v u) := fun _ _ => rfl
    refine ⟨(f.trans e.frame).trans (g _ _), ?_, ?_, ?_, fun i hi => e.outside i hi, fun hs => ?_⟩
    · simpa [h] using e.curX
    · simpa [skipWarnings, h] using e.warnlog
    · simpa [h] using e.wflags
    · have := e.fbOk ⟨hs.1, hs.2⟩
      exact ⟨this.1, this.2⟩
  · rename_i h
    have h : gs.supports code = false := by simpa using h
    exact ⟨rfl, by simp [h], by simp [skipWarnings, h], by simp [WFlags.set, h], fun _ _ => rfl, fun hs => ⟨hs.1, hs.2⟩⟩

theorem drawChars_effect (gs : GlyphSource) (y : Int) (c : Byte) (text : List Byte) (index : Nat) (s : State) :
    TextEffect gs index text s (drawChars gs y c index text s) := by
  induction text generalizing index s with
  | nil => exact ⟨rfl, by simp [drawChars], by simp [drawChars, skipWarnings], by simp [drawChars], fun _ _ => rfl,
      fun h => h⟩
  | cons code text ih =>
    have a := drawChar_effect gs y c index code s
    have b := ih (index + 1) (drawChar gs y c index code s)
    refine ⟨a.frame.trans b.frame, b.curX.trans ?_, b.warnlog.trans ?_, b.wflags.trans ?_,
      fun i hi => (b.outside i (by rw [a.frame.cfg]; exact hi)).trans (a.outside i hi), fun hs => b.fbOk (a.fbOk hs)⟩
    · rw [a.curX]
      by_cases h : gs.supports code = true
      · simp [h]; ring
      · simp [h]
    · rw [a.warnlog]
      by_cases h : gs.supports code = true <;> simp [h, skipWarnings]
    · rw [a.wflags]
      by_cases h : gs.supports code = true <;> simp [h]

/-- One position's effect on a pixel of the RAM. -/
theorem pixel_drawPosition (gs : GlyphSource) (code : Byte) (y : Int) (c : Byte) (row : Nat) (s : State) (col : Nat)
    (hwf : s.cfg.wf = true) {rx ry : Nat} (hx : rx < s.cfg.ramWidth) (hy : ry < s.cfg.ramHeight) :
    (drawPosition gs code y c row s col).pixel rx ry =
      if gs.bit code row col = true ∧ (ry : Int) = s.work.curX + col ∧ ((s.cfg.ramWidth : Int) - 1) - rx = y + row
      then c != s.cfg.black else s.pixel rx ry := by
  unfold drawPosition
  simp only
  by_cases hb : gs.bit code row col = true
  · have hc : (setGCol col s).cfg = s.cfg := rfl
    have hpx : (setGCol col s).pixel rx ry = s.pixel rx ry := rfl
    rw [if_pos hb, show (setGCol col s).work.curX = s.work.curX from rfl]
    rcases plot_cases (s.work.curX + col) (y + row) c (setGCol col s) with ⟨ho, h⟩ | ⟨ho, h⟩ <;> rw [h]
    · unfold onCanvas Config.logicalWidth Config.logicalHeight at ho
      rw [hc] at ho ⊢
      by_cases hat : (ry : Int) = s.work.curX + col ∧ ((s.cfg.ramWidth : Int) - 1) - rx = y + row
      · have e1 : rx = (((s.cfg.ramWidth : Int) - 1) - (y + row)).toNat := by omega
        have e2 : ry = (s.work.curX + col).toNat := by omega
        rw [if_pos ⟨hb, hat⟩, ← e1, ← e2, pixel_pixelWrite_same]
      · rw [if_neg (fun h => hat h.2)]
        refine (pixel_pixelWrite_other (setGCol col s) _ hwf ?_ hx ?_).trans hpx
        · rw [hc]; omega
        · omega
    · rw [if_neg, hpx]
      rintro ⟨_, e1, e2⟩
      apply ho
      unfold onCanvas Config.logicalWidth Config.logicalHeight
      rw [hc]
      omega
  · rw [if_neg hb, if_neg (fun h => hb h.1)]
    rfl

/-- A loop whose steps each write a pixel's value where `P` holds and leave it elsewhere. -/
theorem pixel_foldl {f : State → Nat → State} {P : Nat → Prop} {v : Bool} {rx ry : Nat} {s : State}
    (hf : ∀ u k, PaintEffect u (f u k))
    (hp : ∀ u k, u.cfg = s.cfg → u.work.curX = s.work.curX →
      (P k → (f u k).pixel rx ry = v) ∧ (¬ P k → (f u k).pixel rx ry = u.pixel rx ry)) (l : List Nat) (u : State)
    (hc : u.cfg = s.cfg) (hx : u.work.curX = s.work.curX) :
    ((∃ k ∈ l, P k) → (l.foldl f u).pixel rx ry = v) ∧
      ((¬ ∃ k ∈ l, P k) → (l.foldl f u).pixel rx ry = u.pixel rx ry) := by
  induction l generalizing u with
  | nil => simp
  | cons k l ih =>
    obtain ⟨h1, h2⟩ := ih (f u k) ((hf u k).frame.cfg.trans hc) ((hf u k).curX.trans hx)
    obtain ⟨g1, g2⟩ := hp u k hc hx
    simp only [List.mem_cons, exists_eq_or_imp, List.foldl_cons]
    by_cases hl : ∃ j ∈ l, P j
    · exact ⟨fun _ => h1 hl, fun h => absurd (.inr hl) h⟩
    · rw [h2 hl]
      exact ⟨fun h => g1 (h.resolve_right hl), fun h => g2 (fun hk => h (.inl hk))⟩

/-- One row's effect on a pixel of the RAM: written where the row has ink at it. -/
theorem pixel_drawRow (gs : GlyphSource) (code : Byte) (y : Int) (c : Byte) (s : State) (row : Nat)
    (hwf : s.cfg.wf = true) {rx ry : Nat} (hx : rx < s.cfg.ramWidth) (hy : ry < s.cfg.ramHeight) :
    (drawRow gs code y c s row).pixel rx ry =
      if ∃ col ∈ List.range gs.cellWidth.toNat, gs.bit code row col = true ∧ (ry : Int) = s.work.curX + col ∧
        ((s.cfg.ramWidth : Int) - 1) - rx = y + row
      then c != s.cfg.black else s.pixel rx ry := by
  obtain ⟨h1, h2⟩ := pixel_foldl (s := setGRow row s) (v := c != s.cfg.black) (rx := rx) (ry := ry)
    (P := fun col => gs.bit code row col = true ∧ (ry : Int) = s.work.curX + col ∧
      ((s.cfg.ramWidth : Int) - 1) - rx = y + row)
    (drawPosition_effect gs code y c row) (fun u col hc hcur => by
      have hc : u.cfg = s.cfg := hc
      have hcur : u.work.curX = s.work.curX := hcur
      have h := pixel_drawPosition gs code y c row u col (by rw [hc]; exact hwf) (rx := rx) (ry := ry)
        (by rw [hc]; exact hx) (by rw [hc]; exact hy)
      rw [hc, hcur] at h
      exact ⟨fun hP => by rw [h, if_pos hP], fun hP => by rw [h, if_neg hP]⟩)
    (List.range gs.cellWidth.toNat) (setGRow row s) rfl rfl
  split
  · exact h1 ‹_›
  · exact h2 ‹_›

/-- A cell's effect on a pixel of the RAM: written where the cell has ink at it. -/
theorem pixel_drawCell (gs : GlyphSource) (code : Byte) (y : Int) (c : Byte) (s : State)
    (hwf : s.cfg.wf = true) {rx ry : Nat} (hx : rx < s.cfg.ramWidth) (hy : ry < s.cfg.ramHeight) :
    (drawCell gs code y c s).pixel rx ry =
      if ∃ row ∈ List.range gs.cellHeight.toNat, ∃ col ∈ List.range gs.cellWidth.toNat, gs.bit code row col = true ∧
        (ry : Int) = s.work.curX + col ∧ ((s.cfg.ramWidth : Int) - 1) - rx = y + row
      then c != s.cfg.black else s.pixel rx ry := by
  obtain ⟨h1, h2⟩ := pixel_foldl (s := s) (v := c != s.cfg.black) (rx := rx) (ry := ry)
    (P := fun row => ∃ col ∈ List.range gs.cellWidth.toNat, gs.bit code row col = true ∧
      (ry : Int) = s.work.curX + col ∧ ((s.cfg.ramWidth : Int) - 1) - rx = y + row)
    (drawRow_effect gs code y c) (fun u row hc hcur => by
      have h := pixel_drawRow gs code y c u row (by rw [hc]; exact hwf) (rx := rx) (ry := ry)
        (by rw [hc]; exact hx) (by rw [hc]; exact hy)
      rw [hc, hcur] at h
      exact ⟨fun hP => by rw [h, if_pos hP], fun hP => by rw [h, if_neg hP]⟩)
    (List.range gs.cellHeight.toNat) s rfl rfl
  split
  · exact h1 ‹_›
  · exact h2 ‹_›

end Sys2Proof.Machine
end

