-- ==== Sys2Proof/Laws/Sequences.lean ====
section
/-! SUPPORT. What a sequence of statements does: whatever the environment answers, and when the link layer reports no
failure. -/

namespace Sys2Proof.Machine

/-- HWRESET as one update. -/
theorem hwReset_eq (s : State) :
    hwReset s = { s with rst := 1#1,
                         traceRev := [.delay s.cfg.tResetReleaseMs, .rst 1#1, .delay s.cfg.tResetLowMs, .rst 0#1,
                           .delay s.cfg.tResetSettleMs, .rst 1#1] ++ s.traceRev,
                         work := { s.work with delayTmr := 0 } } := by
  simp [hwReset, delayMs, driveRst, emit]

/-! ### Traces -/

theorem totalDelay_append (a b : List Event) : totalDelay (a ++ b) = totalDelay a + totalDelay b := by
  induction a with
  | nil => simp [totalDelay]
  | cons e a ih => cases e <;> simp [totalDelay, ih, Nat.add_assoc]

theorem lastRst_append (a b : List Event) : lastRst (a ++ b) = (lastRst b).or (lastRst a) := by
  induction a with
  | nil => simp [lastRst]
  | cons e a ih => cases e <;> simp [lastRst, ih]

theorem lastDc_append (a b : List Event) : lastDc (a ++ b) = (lastDc b).or (lastDc a) := by
  induction a with
  | nil => simp [lastDc]
  | cons e a ih => cases e <;> simp [lastDc, ih]

theorem lastCs_append (a b : List Event) : lastCs (a ++ b) = (lastCs b).or (lastCs a) := by
  induction a with
  | nil => simp [lastCs]
  | cons e a ih => cases e <;> simp [lastCs, ih]

theorem wellFramed_append (cfg : Config) (sel : Bool) (a b : List Event) :
    wellFramed cfg sel (a ++ b) =
      (wellFramed cfg sel a &&
        wellFramed cfg (match lastCs a with | none => sel | some v => v == cfg.csActiveLevel) b) := by
  induction a generalizing sel with
  | nil => simp [wellFramed, lastCs]
  | cons e a ih =>
    cases e <;> simp [wellFramed, lastCs, ih, Bool.and_assoc]
    cases lastCs a <;> simp

/-- The events of a wait drive no line, send nothing and need chip select deselected. -/
theorem wait_events {es : List Event} (h : es.all Event.isWait = true) (cfg : Config) :
    lastRst es = none ∧ lastDc es = none ∧ lastCs es = none ∧ wellFramed cfg false es = true ∧
      es.countP Event.isXfer = 0 := by
  induction es with
  | nil => simp [lastRst, lastDc, lastCs, wellFramed]
  | cons e es ih => cases e <;> simp_all [Event.isWait, Event.isXfer, lastRst, lastDc, lastCs, wellFramed]

/-! ### Whatever the environment answers -/

/-- What a sequence does whatever the panel and the link layer answer: it leaves FB, the parameters, EXEC, the response
and what comes next alone, only appends to TRACE and WARNLOG, and either runs through or ends in the bus fault. -/
structure SeqEffect (s t : State) : Prop where
  cfg : t.cfg = s.cfg
  fb : t.fb = s.fb
  epoch : t.epoch = s.epoch
  pending : t.pending = s.pending
  frames : t.frames = s.frames
  operation : t.ctx.operation = s.ctx.operation
  exec : t.exec = s.exec
  response : t.response = s.response
  events : ∃ es, t.trace = s.trace ++ es
  warns : ∃ ws, t.warnlog = s.warnlog ++ ws ∧ t.wflags = ws.foldl WFlags.set s.wflags
  run : t.pstate ≠ .halted → t.busFault = s.busFault
  stop : t.pstate = .halted → s.pstate ≠ .halted → t.busFault.isSome = true ∧ t.cs = t.cfg.csActiveLevel

theorem SeqEffect.refl (s : State) : SeqEffect s s :=
  ⟨rfl, rfl, rfl, rfl, rfl, rfl, rfl, rfl, ⟨[], by simp⟩, ⟨[], by simp, rfl⟩, fun _ => rfl, fun h h' => absurd h h'⟩

theorem SeqEffect.trans {s t u : State} (h : SeqEffect s t) (ht : t.pstate ≠ .halted) (h' : SeqEffect t u) :
    SeqEffect s u := by
  obtain ⟨es, e⟩ := h.events
  obtain ⟨es', e'⟩ := h'.events
  obtain ⟨ws, w, f⟩ := h.warns
  obtain ⟨ws', w', f'⟩ := h'.warns
  have r := h.run ht
  exact ⟨h'.cfg.trans h.cfg, h'.fb.trans h.fb, h'.epoch.trans h.epoch, h'.pending.trans h.pending,
    h'.frames.trans h.frames, h'.operation.trans h.operation, h'.exec.trans h.exec, h'.response.trans h.response,
    ⟨es ++ es', by rw [e', e, List.append_assoc]⟩,
    ⟨ws ++ ws', by rw [w', w, List.append_assoc], by rw [f', f, List.foldl_append]⟩,
    fun hu => (h'.run hu).trans r,
    fun hu _ => h'.stop hu ht⟩

theorem transport_effect (call : TransportCall) (level : Level) (bytes : List Byte) (s : State)
    (hp : s.pstate ≠ .halted) : SeqEffect s (transport call level bytes s) := by
  rcases level_cases (s.linkAnswer 0) with hl | hl
  · rw [transport_ok _ _ _ _ hp hl]
    exact ⟨rfl, rfl, rfl, rfl, rfl, rfl, rfl, rfl, ⟨callEvents s.cfg level bytes, by simp [State.trace, callEvents]⟩,
      ⟨[], by simp, rfl⟩, fun _ => rfl, fun h => absurd h hp⟩
  · rw [transport_fault _ _ _ _ hl]
    exact ⟨rfl, rfl, rfl, rfl, rfl, rfl, rfl, rfl, ⟨[.dc level, .cs s.cfg.csActiveLevel], by simp [State.trace]⟩,
      ⟨[], by simp, rfl⟩, fun h => absurd rfl h, fun _ _ => ⟨rfl, rfl⟩⟩

theorem sendDataBlock_effect (bytes : List Byte) (s : State) (hp : s.pstate ≠ .halted) :
    SeqEffect s (sendDataBlock bytes s) := by
  rcases level_cases (s.linkAnswer 0) with hl | hl
  · rw [sendDataBlock_ok _ _ hp hl]
    exact ⟨rfl, rfl, rfl, rfl, rfl, rfl, rfl, rfl, ⟨callEvents s.cfg 1#1 bytes, by simp [State.trace, callEvents]⟩,
      ⟨[], by simp, rfl⟩, fun _ => rfl, fun h => absurd h hp⟩
  · rw [sendDataBlock_fault _ _ hl]
    exact ⟨rfl, rfl, rfl, rfl, rfl, rfl, rfl, rfl, ⟨[.dc 1#1, .cs s.cfg.csActiveLevel], by simp [State.trace]⟩,
      ⟨[], by simp, rfl⟩, fun h => absurd rfl h, fun _ _ => ⟨rfl, rfl⟩⟩

theorem hwReset_effect (s : State) (hp : s.pstate ≠ .halted) : SeqEffect s (hwReset s) := by
  rw [hwReset_eq]
  exact ⟨rfl, rfl, rfl, rfl, rfl, rfl, rfl, rfl,
    ⟨[.rst 1#1, .delay s.cfg.tResetSettleMs, .rst 0#1, .delay s.cfg.tResetLowMs, .rst 1#1,
      .delay s.cfg.tResetReleaseMs], by simp [State.trace]⟩, ⟨[], by simp, rfl⟩, fun _ => rfl,
    fun h => absurd h hp⟩

theorem waitBusy_seqEffect (site : WaitSite) (s : State) (hp : s.pstate ≠ .halted) :
    SeqEffect s (waitBusy site s) := by
  obtain ⟨f, ⟨es, e, _, _⟩, w⟩ := waitBusy_effect site s
  have hw : ∃ ws, (waitBusy site s).warnlog = s.warnlog ++ ws ∧
      (waitBusy site s).wflags = ws.foldl WFlags.set s.wflags := by
    rcases w with ⟨w1, w2⟩ | ⟨w1, w2⟩
    · exact ⟨[], by simp [w1], w2⟩
    · exact ⟨[.busyTimeout site], w1, w2⟩
  generalize waitBusy site s = t at *
  have hp' : t.pstate = s.pstate := by rw [f]
  exact ⟨by rw [f], by rw [f], by rw [f], by rw [f], by rw [f], by rw [f], by rw [f], by rw [f], ⟨es, e⟩, hw, fun _ => by rw [f],
    fun h => absurd (hp'.symm.trans h) hp⟩

theorem runAct_effect (a : Act) (s : State) (hp : s.pstate ≠ .halted) (ha : a ≠ .setState .halted) :
    SeqEffect s (runAct a s) := by
  cases a with
  | setState p =>
    have hne : p ≠ .halted := fun h => ha (by rw [h])
    rw [show runAct (.setState p) s = { s with pstate := p } from rfl]
    exact ⟨rfl, rfl, rfl, rfl, rfl, rfl, rfl, rfl, ⟨[], by simp [State.trace]⟩, ⟨[], by simp, rfl⟩, fun _ => rfl,
      fun h => absurd h hne⟩
  | hwReset => exact hwReset_effect s hp
  | waitBusy site => exact waitBusy_seqEffect site s hp
  | sendCommand c => exact transport_effect .sendCommand 0#1 [c] s hp
  | sendData d => exact transport_effect .sendData 1#1 [d] s hp
  | sendDataBlock bytes => exact sendDataBlock_effect bytes s hp
  | sendFramebuffer => exact sendDataBlock_effect s.fbBytes s hp

theorem runActs_effect (as : List Act) (s : State) (ha : Act.setState .halted ∉ as) : SeqEffect s (runActs as s) := by
  induction as generalizing s with
  | nil => exact .refl s
  | cons a as ih =>
    by_cases hp : s.pstate = .halted
    · rw [runActs_halted _ _ hp]; exact .refl s
    · rw [runActs_cons _ _ _ hp]
      have h := runAct_effect a s hp (fun he => ha (by simp [he]))
      have h' := ih (runAct a s) (fun hm => ha (List.mem_cons_of_mem _ hm))
      by_cases hq : (runAct a s).pstate = .halted
      · rw [runActs_halted _ _ hq]; exact h
      · exact h.trans hq h'

/-- A panel command changes PSTATE only by the bus fault, and holds neither HWRESET nor a wait. -/
theorem panelActs_plain (cfg : Config) (k : PanelCommand) :
    (∀ p, Act.setState p ∉ panelActs cfg k) ∧ Act.hwReset ∉ panelActs cfg k ∧
      ∀ site, Act.waitBusy site ∉ panelActs cfg k := by
  unfold panelActs
  split <;> simp

/-! ### When the link layer reports no failure -/

/-- The Transport calls of a statement. -/
def Act.calls : Act → Nat
  | .setState _      => 0
  | .hwReset         => 0
  | .waitBusy _      => 0
  | .sendCommand _   => 1
  | .sendData _      => 1
  | .sendDataBlock _ => 1
  | .sendFramebuffer => 1

/-- The Transport calls of a sequence. -/
def callCount (as : List Act) : Nat := (as.map Act.calls).sum

/-- The timeouts a sequence can raise, in order. -/
def timeouts (as : List Act) : List Warning :=
  as.flatMap (fun a => match a with | .waitBusy site => [.busyTimeout site] | _ => [])

/-- The delay a statement can request. -/
def Act.maxDelay (cfg : Config) : Act → Nat
  | .waitBusy _ => cfg.busyPollMax * cfg.busyPollIntervalMs
  | .hwReset    => cfg.tResetSettleMs + cfg.tResetLowMs + cfg.tResetReleaseMs
  | _           => 0

/-- The delay a sequence can request. -/
def maxDelay (cfg : Config) (as : List Act) : Nat := (as.map (Act.maxDelay cfg)).sum

/-- DC after a sequence. -/
def dcAfter : List Act → Level → Level
  | [], v                     => v
  | .sendCommand _ :: as, _   => dcAfter as 0#1
  | .sendData _ :: as, _      => dcAfter as 1#1
  | .sendDataBlock _ :: as, _ => dcAfter as 1#1
  | .sendFramebuffer :: as, _ => dcAfter as 1#1
  | _ :: as, v                => dcAfter as v

/-- PSTATE after a sequence. -/
def stateAfter : List Act → PState → PState
  | [], p                => p
  | .setState q :: as, _ => stateAfter as q
  | _ :: as, p           => stateAfter as p

/-- RST after a sequence. -/
def rstAfter : List Act → Level → Level
  | [], v             => v
  | .hwReset :: as, _ => rstAfter as 1#1
  | _ :: as, v        => rstAfter as v

/-- A statement that sends a block. -/
def Act.isBlock : Act → Bool
  | .sendDataBlock _ => true
  | .sendFramebuffer => true
  | _                => false

theorem callCount_append (as bs : List Act) : callCount (as ++ bs) = callCount as + callCount bs := by
  simp [callCount]

theorem maxDelay_append (cfg : Config) (as bs : List Act) :
    maxDelay cfg (as ++ bs) = maxDelay cfg as + maxDelay cfg bs := by simp [maxDelay]

theorem timeouts_append (as bs : List Act) : timeouts (as ++ bs) = timeouts as ++ timeouts bs := by simp [timeouts]

theorem dcAfter_append (as bs : List Act) (v : Level) : dcAfter (as ++ bs) v = dcAfter bs (dcAfter as v) := by
  induction as generalizing v with
  | nil => rfl
  | cons a as ih => cases a <;> simp [dcAfter, ih]

theorem rstAfter_append (as bs : List Act) (v : Level) : rstAfter (as ++ bs) v = rstAfter bs (rstAfter as v) := by
  induction as generalizing v with
  | nil => rfl
  | cons a as ih => cases a <;> simp [rstAfter, ih]

theorem stateAfter_append (as bs : List Act) (p : PState) :
    stateAfter (as ++ bs) p = stateAfter bs (stateAfter as p) := by
  induction as generalizing p with
  | nil => rfl
  | cons a as ih => cases a <;> simp [stateAfter, ih]

/-- What a sequence does when the link layer reports no failure: the number of transfers, the lines as they end, the
warnings it can raise, the delay it can request, and nothing else. -/
structure ClearEffect (as : List Act) (s t : State) : Prop where
  parts : ∃ es ws, t.trace = s.trace ++ es ∧ es.countP Event.isXfer = callCount as ∧
    t.warnlog = s.warnlog ++ ws ∧ ws.Sublist (timeouts as) ∧ totalDelay es ≤ maxDelay s.cfg as ∧
    ((∀ a ∈ as, a ≠ .hwReset ∧ ∀ site, a ≠ .waitBusy site) → es.any Event.isWait = false) ∧
    ((∀ a ∈ as, a.calls = 0 ∧ a ≠ .hwReset) → es.all Event.isWait = true)
  stream : (∀ a ∈ as, a.isBlock = false) → t.work.streamIdx = s.work.streamIdx
  frame : t = { s with pstate := stateAfter as s.pstate, rst := rstAfter as s.rst, dc := dcAfter as s.dc,
                       cs := if callCount as = 0 then s.cs else s.cfg.csIdleLevel,
                       traceRev := t.traceRev, warnlog := t.warnlog, wflags := t.wflags,
                       work := { s.work with pollCnt := t.work.pollCnt, delayTmr := t.work.delayTmr,
                                             streamIdx := t.work.streamIdx },
                       env := { s.env.takeLinks (callCount as) with
                                  busyAnswers := t.env.busyAnswers, busyTaken := t.env.busyTaken },
                       ctx := { s.ctx with calls := s.ctx.calls + callCount as } }

theorem trace_transport_ok (call : TransportCall) (level : Level) (bytes : List Byte) (s : State)
    (hp : s.pstate ≠ .halted) (h : s.linkAnswer 0 = 0#1) :
    (transport call level bytes s).trace = s.trace ++ callEvents s.cfg level bytes := by
  rw [transport_ok _ _ _ _ hp h]
  simp [State.trace, callEvents]

theorem clear_transport (a : Act) (call : TransportCall) (level : Level) (bytes : List Byte) (s : State)
    (hp : s.pstate ≠ .halted) (h0 : s.linkAnswer 0 = 0#1) (h : runAct a s = transport call level bytes s)
    (h1 : a.calls = 1) (h2 : ∀ v, dcAfter [a] v = level) (h3 : ∀ p, stateAfter [a] p = p)
    (h4 : ∀ v, rstAfter [a] v = v) : ClearEffect [a] s (runAct a s) := by
  have hc : callCount [a] = 1 := by simp [callCount, h1]
  rw [h]
  refine ⟨⟨callEvents s.cfg level bytes, [], trace_transport_ok _ _ _ _ hp h0, ?_, ?_, by simp, ?_, ?_, ?_⟩, ?_, ?_⟩
  · rw [hc]; simp [callEvents, Event.isXfer, List.countP_cons]
  · rw [transport_ok _ _ _ _ hp h0]; simp
  · simp [callEvents, totalDelay]
  · intro _; simp [callEvents, Event.isWait]
  · intro ha; have := (ha a (by simp)).1; omega
  · intro _; rw [transport_ok _ _ _ _ hp h0]
  · rw [hc, h2, h3, h4, transport_ok _ _ _ _ hp h0]
    simp [Env.takeLinks]

theorem clear_block (a : Act) (bytes : List Byte) (s : State) (hp : s.pstate ≠ .halted) (h0 : s.linkAnswer 0 = 0#1)
    (h : runAct a s = sendDataBlock bytes s) (h1 : a.calls = 1) (h2 : ∀ v, dcAfter [a] v = 1#1)
    (h3 : ∀ p, stateAfter [a] p = p) (h4 : ∀ v, rstAfter [a] v = v) (h6 : a.isBlock = true) :
    ClearEffect [a] s (runAct a s) := by
  have hc : callCount [a] = 1 := by simp [callCount, h1]
  rw [h]
  refine ⟨⟨callEvents s.cfg 1#1 bytes, [], ?_, ?_, ?_, by simp, ?_, ?_, ?_⟩, ?_, ?_⟩
  · rw [sendDataBlock_ok _ _ hp h0]; simp [State.trace, callEvents]
  · rw [hc]; simp [callEvents, Event.isXfer, List.countP_cons]
  · rw [sendDataBlock_ok _ _ hp h0]; simp
  · simp [callEvents, totalDelay]
  · intro _; simp [callEvents, Event.isWait]
  · intro ha; have := (ha a (by simp)).1; omega
  · intro ha; have := ha a (by simp); simp [h6] at this
  · rw [hc, h2, h3, h4, sendDataBlock_ok _ _ hp h0]
    simp [Env.takeLinks]

theorem runAct_clear (a : Act) (s : State) (hp : s.pstate ≠ .halted) (hl : s.linkClear a.calls) :
    ClearEffect [a] s (runAct a s) := by
  cases a with
  | setState p =>
    rw [show runAct (.setState p) s = { s with pstate := p } from rfl]
    exact ⟨⟨[], [], by simp [State.trace], rfl, by simp, by simp, by simp [totalDelay], by simp, by simp⟩, fun _ => rfl,
      by simp [callCount, Act.calls, stateAfter, rstAfter, dcAfter]⟩
  | hwReset =>
    rw [show runAct .hwReset s = hwReset s from rfl, hwReset_eq]
    refine ⟨⟨[.rst 1#1, .delay s.cfg.tResetSettleMs, .rst 0#1, .delay s.cfg.tResetLowMs, .rst 1#1,
      .delay s.cfg.tResetReleaseMs], [], by simp [State.trace], by simp [Event.isXfer, callCount, Act.calls], by simp,
      by simp, ?_, by simp, by simp⟩, fun _ => rfl, by simp [callCount, Act.calls, stateAfter, rstAfter, dcAfter]⟩
    simp [totalDelay, maxDelay, Act.maxDelay]
    omega
  | waitBusy site =>
    obtain ⟨f, ⟨es, e1, e2, e3⟩, w⟩ := waitBusy_effect site s
    rw [show runAct (.waitBusy site) s = waitBusy site s from rfl]
    have hs : (waitBusy site s).work.streamIdx = s.work.streamIdx := by rw [f]
    refine ⟨⟨es, if (waitBusy site s).warnlog = s.warnlog then [] else [.busyTimeout site], e1,
      (wait_events e2 s.cfg).2.2.2.2, ?_, ?_, by simpa [maxDelay, Act.maxDelay] using e3, by simp, fun _ => e2⟩,
      fun _ => hs, ?_⟩
    · rcases w with ⟨w, _⟩ | ⟨w, _⟩ <;> simp [w]
    · split <;> simp [timeouts]
    · rw [hs]
      conv_lhs => rw [f]
      simp [callCount, Act.calls, stateAfter, rstAfter, dcAfter]
  | sendCommand c =>
    exact clear_transport _ .sendCommand 0#1 [c] s hp (hl 0 (by simp [Act.calls])) rfl rfl (fun _ => rfl) (fun _ => rfl)
      (fun _ => rfl)
  | sendData d =>
    exact clear_transport _ .sendData 1#1 [d] s hp (hl 0 (by simp [Act.calls])) rfl rfl (fun _ => rfl) (fun _ => rfl)
      (fun _ => rfl)
  | sendDataBlock bytes =>
    exact clear_block _ bytes s hp (hl 0 (by simp [Act.calls])) rfl rfl (fun _ => rfl) (fun _ => rfl) (fun _ => rfl) rfl
  | sendFramebuffer =>
    exact clear_block _ s.fbBytes s hp (hl 0 (by simp [Act.calls])) rfl rfl (fun _ => rfl) (fun _ => rfl) (fun _ => rfl)
      rfl

theorem ClearEffect.append {as bs : List Act} {s t u : State} (a : ClearEffect as s t) (b : ClearEffect bs t u) :
    ClearEffect (as ++ bs) s u := by
  obtain ⟨⟨es, ws, a1, a2, a3, a4, a5, a6, a7⟩, as1, af⟩ := a
  obtain ⟨⟨es', ws', b1, b2, b3, b4, b5, b6, b7⟩, bs1, bf⟩ := b
  have hc : t.cfg = s.cfg := by rw [af]
  rw [hc] at b5
  refine ⟨⟨es ++ es', ws ++ ws', by rw [b1, a1, List.append_assoc],
    by rw [List.countP_append, a2, b2, callCount_append], by rw [b3, a3, List.append_assoc],
    by rw [timeouts_append]; exact a4.append b4, by rw [totalDelay_append, maxDelay_append]; omega, ?_, ?_⟩, ?_, ?_⟩
  · intro h
    rw [List.any_append, a6 (fun x hx => h x (by simp [hx])), b6 (fun x hx => h x (by simp [hx]))]
    rfl
  · intro h
    rw [List.all_append, a7 (fun x hx => h x (by simp [hx])), b7 (fun x hx => h x (by simp [hx]))]
    rfl
  · intro h
    exact (bs1 fun x hx => h x (by simp [hx])).trans (as1 fun x hx => h x (by simp [hx]))
  · rw [stateAfter_append, rstAfter_append, dcAfter_append, callCount_append]
    generalize callCount as = n at *
    generalize callCount bs = m at *
    have t_cfg := congrArg State.cfg af
    have t_fb := congrArg State.fb af
    have t_epoch := congrArg State.epoch af
    have t_pstate := congrArg State.pstate af
    have t_exec := congrArg State.exec af
    have t_cs := congrArg State.cs af
    have t_dc := congrArg State.dc af
    have t_rst := congrArg State.rst af
    have t_response := congrArg State.response af
    have t_busFault := congrArg State.busFault af
    have t_ctx := congrArg State.ctx af
    have t_pending := congrArg State.pending af
    have t_frames := congrArg State.frames af
    have w_curX := congrArg (fun s => s.work.curX) af
    have w_charIdx := congrArg (fun s => s.work.charIdx) af
    have w_gRow := congrArg (fun s => s.work.gRow) af
    have w_gCol := congrArg (fun s => s.work.gCol) af
    have v_linkAnswers := congrArg (fun s => s.env.linkAnswers) af
    have v_linkTaken := congrArg (fun s => s.env.linkTaken) af
    dsimp only at t_cfg t_fb t_epoch t_pstate t_exec t_cs t_dc t_rst t_response t_busFault t_ctx t_pending t_frames
    dsimp only at w_curX w_charIdx w_gRow w_gCol v_linkAnswers v_linkTaken
    conv_lhs => rw [bf]
    simp only [t_cfg, t_fb, t_epoch, t_pstate, t_exec, t_cs, t_dc, t_rst, t_response, t_busFault, t_ctx, t_pending, t_frames,
      w_curX, w_charIdx, w_gRow, w_gCol, v_linkAnswers, v_linkTaken, Env.takeLinks]
    by_cases hm : m = 0 <;> by_cases hn : n = 0 <;> simp [hm, hn, Nat.add_assoc]

theorem runActs_clear (as : List Act) (s : State) (hp : s.pstate ≠ .halted) (ha : Act.setState .halted ∉ as)
    (hl : s.linkClear (callCount as)) : ClearEffect as s (runActs as s) := by
  induction as generalizing s with
  | nil => exact ⟨⟨[], [], by simp, rfl, by simp, by simp, by simp [totalDelay], by simp, by simp⟩, fun _ => rfl,
      by simp [callCount, stateAfter, rstAfter, dcAfter]⟩
  | cons a as ih =>
    rw [runActs_cons _ _ _ hp]
    have hl' : s.linkClear (a.calls + callCount as) := by simpa [callCount] using hl
    have r := runAct_clear a s hp (linkClear_mono hl' (by omega))
    generalize runAct a s = t at r
    have hpt : t.pstate ≠ .halted := by
      have h : t.pstate = stateAfter [a] s.pstate := by rw [r.frame]
      rw [h]
      cases a <;> first
        | exact hp
        | (intro h; apply ha; simp only [stateAfter] at h; simp [h])
    have henv : t.env.linkAnswers = (s.env.takeLinks a.calls).linkAnswers ∧
        t.env.linkTaken = (s.env.takeLinks a.calls).linkTaken := by
      rw [r.frame]; simp [callCount]
    have hla : ∀ k, t.linkAnswer k = s.linkAnswer (a.calls + k) := by
      intro k
      simp [State.linkAnswer, henv.1, henv.2, Env.takeLinks, Nat.add_assoc]
    exact r.append (ih t hpt (fun h => ha (List.mem_cons_of_mem _ h)) (fun k hk => by rw [hla]; exact hl' _ (by omega)))

/-- The Transport calls of a panel command without the payload. -/
theorem callCount_panel (cfg : Config) (k : PanelCommand) (hk : k ≠ .writeRamBw) :
    callCount (panelActs cfg k) = panelCalls cfg k := by
  have h : ∀ l : List Byte, (List.map Act.calls (List.map Act.sendData l)).sum = l.length := by
    intro l
    induction l with
    | nil => rfl
    | cons a l ih => simp only [List.map_cons, List.sum_cons, ih, Act.calls, List.length_cons]; omega
  unfold panelActs panelCalls callCount
  rw [if_neg hk]
  simp only [List.map_cons, List.sum_cons, h]
  simp [Act.calls]

/-- A panel command cannot time out and requests no delay. -/
theorem panelActs_quiet (c cfg : Config) (k : PanelCommand) :
    timeouts (panelActs cfg k) = [] ∧ maxDelay c (panelActs cfg k) = 0 := by
  unfold panelActs timeouts maxDelay
  split <;> simp [Act.maxDelay, List.flatMap_map, Function.comp_def]

end Sys2Proof.Machine
end

