-- ==== Sys2Proof/Laws/Step.lean ====
section
/-! SUPPORT. What a step takes and what it can do, said once. -/

namespace Sys2Proof.Machine

@[simp] theorem ownFrames_idle {s : State} (h : s.exec = false) : s.ownFrames = [] := by simp [State.ownFrames, h]

@[simp] theorem ownFrames_busy {s : State} (h : s.exec = true) : s.ownFrames = s.frames := by simp [State.ownFrames, h]

theorem fetch_reset {s : State} {rest : List Input} (h : s.pending = .coreReset :: rest) :
    fetch s = .reset { s with pending := rest } := by simp [fetch, h]

theorem fetch_request {s : State} {d : Descriptor} {text : List Byte} {gs : Option GlyphSource} {rest : List Input}
    (h : s.pending = .request d text gs :: rest) :
    fetch s = .words (.request d text gs) { s with pending := rest } := by simp [fetch, h]

theorem fetch_frame {s : State} {symbols : List Symbol} {rest : List (List Symbol)} (h : s.pending = [])
    (hf : s.ownFrames = symbols :: rest) : fetch s = .words (.frame symbols) { s with frames := rest } := by
  simp [fetch, h, hf]

theorem fetch_nothing {s : State} (h : s.pending = []) (hf : s.ownFrames = []) : fetch s = .nothing := by
  simp [fetch, h, hf]

/-- What a step takes is one of these four. -/
theorem fetch_cases (s : State) :
    (s.pending = [] ∧ s.ownFrames = [] ∧ fetch s = .nothing) ∨
    (∃ rest, s.pending = .coreReset :: rest ∧ fetch s = .reset { s with pending := rest }) ∨
    (∃ d text gs rest, s.pending = .request d text gs :: rest ∧
      fetch s = .words (.request d text gs) { s with pending := rest }) ∨
    (∃ symbols rest, s.pending = [] ∧ s.exec = true ∧ s.frames = symbols :: rest ∧
      fetch s = .words (.frame symbols) { s with frames := rest }) := by
  match hp : s.pending, hf : s.ownFrames with
  | .coreReset :: rest, _ => exact .inr (.inl ⟨rest, rfl, fetch_reset hp⟩)
  | .request d text gs :: rest, _ => exact .inr (.inr (.inl ⟨d, text, gs, rest, rfl, fetch_request hp⟩))
  | [], [] => exact .inl ⟨rfl, rfl, fetch_nothing hp hf⟩
  | [], symbols :: rest =>
    have he : s.exec = true := by
      by_contra h
      simp [State.ownFrames, h] at hf
    exact .inr (.inr (.inr ⟨symbols, rest, rfl, he, by rwa [ownFrames_busy he] at hf,
      by rw [fetch_frame hp hf, hp]⟩))

/-- A step on words that are an instruction performs it on the state without them. -/
theorem step_words {s t : State} {w : Words} {i : Instr} (h : fetch s = .words w t) (hd : decode s.cfg w = .ok i) :
    step s = exec i t := by simp [step, h, hd]

/-- A step on words that are no instruction is refused. -/
theorem step_rejects {s t : State} {w : Words} {e : DecodeError} (h : fetch s = .words w t)
    (hd : decode s.cfg w = .error e) : step s = .refused (decodeRefusal s e) := by simp [step, h, hd]

/-- A step that answers a state found nothing to do, reset the core, or performed an instruction. -/
theorem step_cases {s t : State} (h : step s = .next t) :
    (fetch s = .nothing ∧ t = s) ∨ (∃ u, fetch s = .reset u ∧ t = coreReset u) ∨
    ∃ w u i, fetch s = .words w u ∧ decode s.cfg w = .ok i ∧ exec i u = .next t := by
  unfold step at h
  split at h
  · cases h; exact .inl ⟨‹_›, rfl⟩
  · cases h; exact .inr (.inl ⟨_, ‹_›, rfl⟩)
  · rename_i w u hf
    split at h
    · exact .inr (.inr ⟨w, u, _, hf, ‹_›, h⟩)
    · cases h

end Sys2Proof.Machine
end

