-- ==== Sys2Proof/Tests/Slice0.lean ====
section
/-! SUPPORT. Tests against 95_test_vectors.md (its entries P, S and V are named where they are used), the smoke tests of
WellFormed, and a witness for the hypotheses of every statement. -/

namespace Sys2Proof.Tests

open Sys2Proof Sys2Proof.Machine

/-! ### Small states -/

/-- A panel never busy for eight samples, a link without a failure for forty transfers. -/
def quiet : Env := ⟨List.replicate 8 0#1, 0, List.replicate 40 0#1, 0⟩

/-- Right after reset, in front of that environment. -/
def start : State := { State.reset with env := quiet }

/-- The same, initialized. -/
def idle : State := { start with pstate := .idle, rst := 1#1 }

/-- A RAM of 16 by 4 pixels, eight bytes. -/
def tiny : Config := { Config.default with ramWidth := 16, ramHeight := 4, stripePeriod := 2, checkerBlockRows := 1 }

def tinyStart : State := { start with cfg := tiny }

def tinyIdle : State := { idle with cfg := tiny }

def halted : State := { start with pstate := .halted, exec := true }

/-- A link that fails at its `j`-th transfer. -/
def failing (j : Nat) (s : State) : State :=
  { s with env := ⟨List.replicate 8 0#1, 0, List.replicate j 0#1 ++ [1#1], 0⟩ }

/-- The font of 95_test_vectors.md section 2. -/
def font : GlyphSource where
  byteTable    := [0xC0#8, 0x40#8, 0x00#8, 0x3F#8, 0x01#8, 0x80#8, 0xFF#8, 0xC0#8, 0x00#8, 0x00#8, 0x80#8, 0x00#8]
  cellWidth    := 10
  cellHeight   := 3
  firstCode    := 0x41
  lastCode     := 0x42
  codesOrdered := by decide

/-- The outcome is a next state with the property. -/
def isNext (o : Host.Outcome State Fault Refusal) (p : State → Bool) : Bool :=
  match o with
  | .next t => p t
  | _       => false

/-- The outcome is that refusal. -/
def isRefused (o : Host.Outcome State Fault Refusal) (r : Refusal) : Bool :=
  match o with
  | .refused r' => r' == r
  | _           => false

theorem next_of_isNext {o : Host.Outcome State Fault Refusal} {p : State → Bool} (h : isNext o p = true) :
    ∃ t, o = .next t ∧ p t = true := by
  cases o with
  | next t => exact ⟨t, rfl, h⟩
  | fault f => cases h
  | refused r => cases h

theorem answers {o : Host.Outcome State Fault Refusal} (h : isNext o (fun _ => true) = true) : ∃ t, o = .next t :=
  let ⟨t, ht, _⟩ := next_of_isNext h
  ⟨t, ht⟩

/-- The bytes of FB at some addresses. -/
def bytesAt (s : State) (l : List Nat) : List Byte := l.map s.readFb

/-! ### Well-formedness refuses -/

theorem test_wf_text_too_long (l : List Byte) (h : l.length = 65536) :
    Instr.wf Config.default (.drawText 0 0 l none 0) = false := by
  simp only [Instr.wf, h]; decide

theorem test_wf_longest_text (l : List Byte) (h : l.length = 65535) :
    Instr.wf Config.default (.drawText 0 0 l none 0) = true := by
  simp only [Instr.wf, h]; decide

theorem test_wf_coordinates :
    Instr.wf Config.default (.drawText 32768 0 [] none 0) = false ∧
    Instr.wf Config.default (.drawText 0 (-32769) [] none 0) = false ∧
    Instr.wf Config.default (.drawText 32767 (-32768) [] none 0) = true := by decide

theorem test_wf_command_spelled_as_sendcommand : Instr.wf Config.default (.sendCommand 0x12) = false := by decide

theorem test_wf_block_of_one : Instr.wf Config.default (.sendDataBlock [0x00]) = false := by decide

theorem test_wf_block_too_long : Instr.wf tiny (.sendDataBlock (List.replicate 9 0x00)) = false := by decide

theorem test_wf_full_block : Instr.wf tiny (.sendDataBlock (List.replicate 8 0x00)) = true := by decide

/-- A configuration in which two commands have one code. -/
def clash : Config :=
  { Config.default with cmd := { CommandBytes.default with displayUpdateControl1 := 0x12, displayUpdateControl2 := 0x12 } }

theorem test_wf_shared_code :
    Instr.wf clash .cmdDisplayUpdateControl1 = false ∧ Instr.wf clash .cmdDisplayUpdateControl2 = false ∧
      Instr.wf clash .cmdSwReset = true := by decide

theorem test_wf_all_default_commands : ∀ k ∈ PanelCommand.all, Instr.wf Config.default k.instr = true := by decide

/-! ### Decoding: a word of every row, written from 30_encoding.md R60, R66, R76, R77 -/

theorem test_decode_initPanel : decodeTableWord 64 0x0000000000000000 = some .initPanel := by decide
theorem test_decode_clear : decodeTableWord 64 0x105A000000000000 = some (.clear 0x5A) := by decide
theorem test_decode_display : decodeTableWord 64 0x2000000000000000 = some .display := by decide
theorem test_decode_drawText :
    decode Config.default (.request 0x3800FFFFFFFF0001 [0x42] (some font)) =
      .ok (.drawText (-1) (-1) [0x42] (some font) 0x00) := by decide
theorem test_decode_drawText_color :
    decode Config.default (.request 0x38FF0000007E0001 [0x42, 0x41] (some font)) =
      .ok (.drawText 0 126 [0x42] (some font) 0xFF) := by decide
/-- A configuration with coordinates of 8 and a text length of 4 bits: the high bits of the fields are not read. -/
theorem test_decode_drawText_widths :
    decode { Config.default with coordBits := 8, textLenBits := 4 } (.request 0x38FF7F80017F7FF1 [0x42, 0x41] (some font)) =
      .ok (.drawText (-128) 127 [0x42] (some font) 0xFF) := by decide
theorem test_decode_fillPattern : decodeTableWord 64 0x4800FFFF12345678 = some .fillPattern := by decide
theorem test_decode_fillCheckerboard : decodeTableWord 64 0x5000000000000000 = some .fillCheckerboard := by decide
theorem test_decode_sendCommand : decodeTableWord 16 0x0AB = some (.sendCommand 0xAB) := by decide
theorem test_decode_sendData : decodeTableWord 16 0x1F7 = some (.sendData 0xF7) := by decide
theorem test_decode_sendDataBlock :
    decode Config.default (.frame [0x1AA, 0x155, 0x1FF]) = .ok (.sendDataBlock [0xAA, 0x55, 0xFF]) := by decide
theorem test_decode_cmdSwReset : decodeTableWord 16 0x012 = some .cmdSwReset := by decide
theorem test_decode_cmdDriverOutputControl : decodeTableWord 16 0x001 = some .cmdDriverOutputControl := by decide
theorem test_decode_cmdDataEntryMode : decodeTableWord 16 0x011 = some .cmdDataEntryMode := by decide
theorem test_decode_cmdSetRamXWindow : decodeTableWord 16 0x044 = some .cmdSetRamXWindow := by decide
theorem test_decode_cmdSetRamYWindow : decodeTableWord 16 0x045 = some .cmdSetRamYWindow := by decide
theorem test_decode_cmdBorderWaveform : decodeTableWord 16 0x03C = some .cmdBorderWaveform := by decide
theorem test_decode_cmdTempSensor : decodeTableWord 16 0x018 = some .cmdTempSensor := by decide
theorem test_decode_cmdDisplayUpdateControl1 : decodeTableWord 16 0x021 = some .cmdDisplayUpdateControl1 := by decide
theorem test_decode_cmdSetRamXCounter : decodeTableWord 16 0x04E = some .cmdSetRamXCounter := by decide
theorem test_decode_cmdSetRamYCounter : decodeTableWord 16 0x04F = some .cmdSetRamYCounter := by decide
theorem test_decode_cmdWriteRamBw : decodeTableWord 16 0x024 = some .cmdWriteRamBw := by decide
theorem test_decode_cmdDisplayUpdateControl2 : decodeTableWord 16 0x022 = some .cmdDisplayUpdateControl2 := by decide
theorem test_decode_cmdMasterActivation : decodeTableWord 16 0x020 = some .cmdMasterActivation := by decide

theorem test_decode_rejects :
    decodeTableWord 64 0x6000000000000000 = none ∧ decodeTableWord 64 0xF000000000000000 = none ∧
    decodeTableWord 64 0x4100000000000000 = none ∧
    decode Config.default (.request 0x3800000000000001 [0x41] none) = .error .glyphSourceMissing ∧
    decode Config.default (.request 0x3800000000000002 [0x41] (some font)) = .error .textTooShort ∧
    decode Config.default (.frame []) = .error .emptyFrame ∧
    decode Config.default (.frame [0x112, 0x012]) = .error .mixedFrame ∧
    decode tiny (.frame (List.replicate 9 0x100)) = .error .frameTooLong := by decide

/-! ### One step of each instruction -/

/-- P1: the frame level of INITIALIZE with one busy sample after the software reset. -/
theorem test_initPanel_frames :
    isNext (exec .initPanel { start with env := { quiet with busyAnswers := [0#1, 1#1, 0#1, 0#1] } }) (fun t =>
      decide (frameLevel t.trace =
        [.line (.rst 1#1), .line (.delay 200), .line (.rst 0#1), .line (.delay 10), .line (.rst 1#1),
         .line (.delay 200), .line (.busy 0#1), .frame 0#1 [0x12],
         .line (.busy 1#1), .line (.delay 10), .line (.busy 0#1),
         .frame 0#1 [0x01], .frame 1#1 [0x27], .frame 1#1 [0x01], .frame 1#1 [0x00],
         .frame 0#1 [0x11], .frame 1#1 [0x03], .frame 0#1 [0x44], .frame 1#1 [0x00], .frame 1#1 [0x0F],
         .frame 0#1 [0x45], .frame 1#1 [0x00], .frame 1#1 [0x00], .frame 1#1 [0x27], .frame 1#1 [0x01],
         .frame 0#1 [0x3C], .frame 1#1 [0x05], .frame 0#1 [0x18], .frame 1#1 [0x80],
         .frame 0#1 [0x21], .frame 1#1 [0x00], .frame 1#1 [0x80], .frame 0#1 [0x4E], .frame 1#1 [0x00],
         .frame 0#1 [0x4F], .frame 1#1 [0x00], .frame 1#1 [0x00], .line (.busy 0#1)]) &&
      decide (t.pstate = .idle ∧ t.exec = false ∧ t.rst = 1#1 ∧ t.dc = 1#1 ∧ t.cs = 1#1 ∧ t.warnlog = [] ∧
        t.response = some [] ∧ totalDelay t.trace = 420)) = true := by decide

/-- P5: the third Transport call of INITIALIZE fails. -/
theorem test_initPanel_fault :
    isNext (exec .initPanel (failing 2 start)) (fun t =>
      decide (t.trace =
        [.rst 1#1, .delay 200, .rst 0#1, .delay 10, .rst 1#1, .delay 200, .busy 0#1,
         .dc 0#1, .cs 0#1, .xfer [0x12], .cs 1#1, .busy 0#1, .dc 0#1, .cs 0#1, .xfer [0x01], .cs 1#1,
         .dc 1#1, .cs 0#1]) &&
      decide (t.pstate = .halted ∧ t.exec = true ∧ t.cs = 0#1 ∧ t.dc = 1#1 ∧ t.rst = 1#1 ∧ t.response = none ∧
        t.warnlog = [] ∧ t.busFault = some ⟨some .initPanel, 2, .sendData⟩)) = true := by decide

/-- V20. -/
theorem test_clear_bytes :
    isNext (exec (.clear 0x5A) start) (fun t =>
      decide (bytesAt t [0, 1, 2368, 4735] = [0x5A, 0x5A, 0x5A, 0x5A] ∧ t.fb.length = 4736 ∧ t.trace = [] ∧
        t.warnlog = [] ∧ t.pstate = .uninitialized)) = true := by decide +kernel

/-- R116 on a RAM of eight bytes, each of another value, with a busy sample first. -/
theorem test_display_frames :
    isNext (exec .display { tinyIdle with
        fb := [(0, 0xA0), (1, 0xA1), (2, 0xA2), (3, 0xA3), (4, 0xA4), (5, 0xA5), (6, 0xA6), (7, 0xA7)],
        env := { quiet with busyAnswers := [1#1, 0#1] } }) (fun t =>
      decide (frameLevel t.trace =
        [.frame 0#1 [0x4E], .frame 1#1 [0x00], .frame 0#1 [0x4F], .frame 1#1 [0x00], .frame 1#1 [0x00],
         .frame 0#1 [0x24], .frame 1#1 [0xA0, 0xA1, 0xA2, 0xA3, 0xA4, 0xA5, 0xA6, 0xA7],
         .frame 0#1 [0x22], .frame 1#1 [0xF7], .frame 0#1 [0x20],
         .line (.busy 1#1), .line (.delay 10), .line (.busy 0#1)]) &&
      decide (t.pstate = .idle ∧ t.dc = 0#1 ∧ t.cs = 1#1 ∧ t.response = some [])) = true := by decide

/-- P3, request 3: a panel that never releases busy. -/
theorem test_display_timeout :
    isNext (exec .display { tinyIdle with env := { quiet with busyAnswers := List.replicate 400 1#1 } }) (fun t =>
      decide (t.pstate = .idle ∧ t.exec = false ∧ t.response = some [.busyTimeout .afterActivation] ∧
        t.wflags.busyTimeout = true ∧ t.env.busyTaken = 400 ∧ t.env.busyAnswers = [] ∧
        totalDelay t.trace = 4000)) = true := by
  decide +kernel

/-- V31 on an all-white framebuffer. -/
theorem test_drawText_AB :
    isNext (exec (.drawText 10 40 [0x41, 0x42] (some font) 0x00)
        { start with fb := (List.range 4736).map (fun i => (i, 0xFF)) }) (fun t =>
      decide (t.fb.filter (fun c => c.2 != 0xFF) =
        [(170, 0xFE), (186, 0xFE), (282, 0xFB), (298, 0xFB), (314, 0xFE), (330, 0xFA), (346, 0xFE), (362, 0xFE),
         (378, 0xFE), (394, 0xFE), (410, 0xFE), (426, 0xFE), (442, 0xFE), (458, 0xFE), (474, 0xFE)]) &&
      decide (t.fb.length = 4736 ∧ t.response = some [] ∧ t.trace = [] ∧ t.work.curX = 30)) = true := by
  decide +kernel

/-- V38, and V41's cursor. -/
theorem test_drawText_skips :
    isNext (exec (.drawText 32767 32767 [0xC3, 0x41, 0x20] (some font) 0x00) start) (fun t =>
      decide (t.fb = [] ∧ t.response = some [.glyphSkipped 0 0xC3, .glyphSkipped 2 0x20] ∧
        t.wflags = ⟨false, true, false⟩ ∧ t.work.curX = 32777)) = true := by decide

/-- V22. -/
theorem test_fillPattern_bytes :
    isNext (exec .fillPattern start) (fun t =>
      decide (bytesAt t [0, 15, 16, 255, 256, 271, 272, 4608, 4623, 4624, 4735] =
        [0x00, 0x00, 0xFF, 0xFF, 0x00, 0x00, 0xFF, 0x00, 0x00, 0xFF, 0xFF]) &&
      decide ((t.fb.filter (fun c => c.2 == 0x00)).length = 304)) = true := by decide +kernel

/-- V23. -/
theorem test_fillCheckerboard_bytes :
    isNext (exec .fillCheckerboard start) (fun t =>
      decide (bytesAt t [0, 1, 112, 127, 128, 129, 255, 256, 4720, 4735] =
        [0xAA, 0x55, 0xAA, 0x55, 0x55, 0xAA, 0xAA, 0xAA, 0xAA, 0x55])) = true := by decide +kernel

/-- V50. -/
theorem test_sendCommand_events :
    isNext (exec (.sendCommand 0x12) { start with dc := 1#1 }) (fun t =>
      decide (t.trace = [.dc 0#1, .cs 0#1, .xfer [0x12], .cs 1#1] ∧ t.dc = 0#1 ∧ t.cs = 1#1)) = true := by
  decide

/-- V51. -/
theorem test_sendData_events :
    isNext (exec (.sendData 0xF7) start) (fun t =>
      decide (t.trace = [.dc 1#1, .cs 0#1, .xfer [0xF7], .cs 1#1] ∧ t.dc = 1#1)) = true := by decide

/-- V53. -/
theorem test_sendData_fault :
    isNext (exec (.sendData 0x27) (failing 0 start)) (fun t =>
      decide (t.trace = [.dc 1#1, .cs 0#1] ∧ t.cs = 0#1 ∧ t.pstate = .halted)) = true := by decide

/-- V52 in the small: one pulse of chip select, eight clock pulses a byte. -/
theorem test_sendDataBlock_events :
    isNext (exec (.sendDataBlock (List.replicate 8 0xFF)) tinyStart) (fun t =>
      decide (t.trace = [.dc 1#1, .cs 0#1, .xfer (List.replicate 8 0xFF), .cs 1#1] ∧ t.work.streamIdx = 8 ∧
        (t.trace.map Event.clockPulses).sum = 64)) = true := by decide

/-- 30_encoding.md R68, the parameters with the default values of R66 and R67. -/
theorem test_panel_frames :
    (PanelCommand.all.filter (· ≠ .writeRamBw)).map (fun k =>
        match exec k.instr start with
        | .next t => frameLevel t.trace
        | _ => []) =
      [[.frame 0#1 [0x12]],
       [.frame 0#1 [0x01], .frame 1#1 [0x27], .frame 1#1 [0x01], .frame 1#1 [0x00]],
       [.frame 0#1 [0x11], .frame 1#1 [0x03]],
       [.frame 0#1 [0x44], .frame 1#1 [0x00], .frame 1#1 [0x0F]],
       [.frame 0#1 [0x45], .frame 1#1 [0x00], .frame 1#1 [0x00], .frame 1#1 [0x27], .frame 1#1 [0x01]],
       [.frame 0#1 [0x3C], .frame 1#1 [0x05]],
       [.frame 0#1 [0x18], .frame 1#1 [0x80]],
       [.frame 0#1 [0x21], .frame 1#1 [0x00], .frame 1#1 [0x80]],
       [.frame 0#1 [0x4E], .frame 1#1 [0x00]],
       [.frame 0#1 [0x4F], .frame 1#1 [0x00], .frame 1#1 [0x00]],
       [.frame 0#1 [0x22], .frame 1#1 [0xF7]],
       [.frame 0#1 [0x20]]] := by decide

/-- R68, the payload in address order. -/
theorem test_cmdWriteRamBw_payload :
    isNext (exec .cmdWriteRamBw { tinyStart with
        fb := [(0, 0xA0), (1, 0xA1), (2, 0xA2), (3, 0xA3), (4, 0xA4), (5, 0xA5), (6, 0xA6), (7, 0xA7)] }) (fun t =>
      decide (frameLevel t.trace =
        [.frame 0#1 [0x24], .frame 1#1 [0xA0, 0xA1, 0xA2, 0xA3, 0xA4, 0xA5, 0xA6, 0xA7]])) = true := by decide

/-- V10 and V11: byte index, mask and transform. -/
theorem test_addressing :
    [(0, 0), (7, 0), (8, 0), (127, 0), (0, 1), (87, 10), (64, 100), (0, 295), (127, 295)].map
        (fun p => (byteIndex Config.default p.1 p.2, mask p.1)) =
      [(0, 0x80), (0, 0x01), (1, 0x80), (15, 0x01), (16, 0x80), (170, 0x01), (1608, 0x80), (4720, 0x80),
       (4735, 0x01)] ∧
    ramXOf Config.default 40 = 87 ∧ ramYOf 10 = 10 ∧ ramXOf Config.default 64 = 63 := by decide

/-- V43: three samples, then 400. -/
theorem test_waitBusy :
    (waitBusy .afterConfig { start with env := { quiet with busyAnswers := [1#1, 1#1, 0#1, 0#1] } }).trace =
        [.busy 1#1, .delay 10, .busy 1#1, .delay 10, .busy 0#1] ∧
    (waitBusy .afterConfig { start with env := { quiet with busyAnswers := List.replicate 399 1#1 ++ [0#1] } }).warnlog
        = [] ∧
    (waitBusy .afterConfig { start with env := { quiet with busyAnswers := List.replicate 400 1#1 } }).warnlog
        = [.busyTimeout .afterConfig] := by decide +kernel

/-- P4, requests 1 and 4: refusals, through the step. -/
theorem test_step_refuses :
    isRefused (step (start.withFetchWord 64 0x2000000000000000)) .wrongState = true ∧
    isRefused (step (start.withFetchWord 64 0x6000000000000000)) .reservedEncoding = true ∧
    isRefused (step (halted.withFetchWord 64 0x6000000000000000)) .halted = true ∧
    isRefused (step ({ start with exec := true }.withFetchWord 64 0x6000000000000000)) .operationInProgress = true ∧
    isRefused (step { start with pending := [.request 0x3800000000000002 [0x41] (some font)] })
      .operandSpaceTooShort = true ∧
    isRefused (step { start with exec := true, frames := [[]] }) .illFormedFrame = true ∧
    isRefused (step (halted.withFetchWord 9 0x012)) .halted = true := by decide

/-- 30_encoding.md R84: a frame is a step inside an operation only; a request made meanwhile is refused and not queued
(60_exceptions.md R172). -/
theorem test_step_frame :
    isNext (step (start.withFetchWord 9 0x012)) (fun t =>
      decide (t.trace = [.dc 0#1, .cs 0#1, .xfer [0x12], .cs 1#1] ∧ t.exec = true ∧ t.frames = [])) = true ∧
    isNext (step { start with frames := [[0x012]] }) (fun t => decide (t.trace = [] ∧ t.frames = [[0x012]])) = true ∧
    isRefused (step { start.withFetchWord 9 0x012 with pending := [.request 0 [] none] }) .operationInProgress = true := by
  decide

/-- A cell of three rows without columns: G_ROW is the last row visited, G_COL what it was (43_rasterizer.md R140). -/
theorem test_drawText_empty_rows :
    isNext (exec (.drawText 0 0 [0x41] (some { font with cellWidth := 0 }) 0x00)
        { start with work := { start.work with gRow := 9, gCol := 9 } }) (fun t =>
      decide (t.work.gRow = 2 ∧ t.work.gCol = 9 ∧ t.work.curX = 0 ∧ t.fb = [])) = true := by decide

/-! ### Witnesses: the hypotheses of every statement that has some are met

A clause is met at the ends of its range where it has one. -/

theorem start_ready : start.ready := ⟨by decide, rfl, by decide⟩
theorem idle_ready : idle.ready := ⟨by decide, rfl, by decide⟩
theorem tinyStart_ready : tinyStart.ready := ⟨by decide, rfl, by decide⟩

theorem start_linkClear : start.linkClear 40 := by unfold State.linkClear; decide
theorem tinyStart_linkClear : tinyStart.linkClear 40 := by unfold State.linkClear; decide
theorem idle_linkClear : idle.linkClear 40 := by unfold State.linkClear; decide

theorem test_witness_DecodeEncodeRoundTrip :
    Instr.wf Config.default (.drawText (-32768) 32767 (List.replicate 300 0x41) (some font) 0xFF) = true ∧
    Instr.wf Config.default (.sendDataBlock (List.replicate 4736 0xFF)) = true ∧
    Instr.wf Config.default (.sendDataBlock [0x00, 0xFF]) = true ∧
    Instr.wf Config.default (.sendCommand 0xAB) = true ∧ Instr.wf Config.default (.clear 0x5A) = true := by
  decide +kernel

theorem test_witness_SharedWordsDecode : Config.default.codesDistinct := by decide

theorem test_witness_DecodedInstrWellFormed :
    decode Config.default (.request 0x38FF0000007E0001 [0x42] (some font)) =
      .ok (.drawText 0 126 [0x42] (some font) 0xFF) := by decide

theorem test_witness_FrameEncodesBack :
    decode Config.default (.frame [0x012]) = .ok .cmdSwReset ∧
    decode Config.default (.frame [0x0AB]) = .ok (.sendCommand 0xAB) ∧
    decode Config.default (.frame [0x1AB]) = .ok (.sendData 0xAB) ∧
    decode Config.default (.frame [0x1AB, 0x100]) = .ok (.sendDataBlock [0xAB, 0x00]) := by decide

/-- Both operations, both signs of both coordinates, both values of `g`. -/
theorem test_witness_OperandAssembly :
    (Config.default.coordBits = 16 ∧ Config.default.textLenBits = 16) ∧
    ((0x10FF000000000000#64).toNat / 2 ^ 56 % 8 = 0 ∧ (0x10FF000000000000#64).toNat % 65536 ≤ [0x41#8].length ∧
      (0x10FF000000000000#64).toNat / 2 ^ 60 = 1) ∧
    ((0x38007FFF80000001#64).toNat / 2 ^ 56 % 8 = 0 ∧ (0x38007FFF80000001#64).toNat % 65536 ≤ [0x41#8].length ∧
      (0x38007FFF80000001#64).toNat / 2 ^ 60 = 3) ∧
    ((0x30FF80007FFF0000#64).toNat / 2 ^ 56 % 8 = 0 ∧ (0x30FF80007FFF0000#64).toNat % 65536 ≤ [0x41#8].length ∧
      (0x30FF80007FFF0000#64).toNat / 2 ^ 60 = 3) := by decide

/-- The widths at both ends of their range, with the longest text each allows here. -/
theorem test_witness_OperandWidths :
    (({ Config.default with coordBits := 1, textLenBits := 1 } : Config).wf = true ∧
      (0x38007FFF8000FFFF#64).toNat / 2 ^ 56 % 8 = 0 ∧ (0x38007FFF8000FFFF#64).toNat / 2 ^ 60 = 3 ∧
      (0x38007FFF8000FFFF#64).toNat % 2 ^ 1 ≤ [0x41#8].length) ∧
    (Config.default.wf = true ∧ (0x38007FFF80000001#64).toNat % 2 ^ Config.default.textLenBits ≤ [0x41#8].length) := by
  decide

/-- Every operation but DRAWTEXT, every other field all ones. -/
theorem test_witness_UnusedFieldsIgnored :
    (Descriptor.reserved 0x08FFFFFFFFFFFFFF#64 = 0#3 ∧ Descriptor.op 0x08FFFFFFFFFFFFFF#64 = 0#4) ∧
    (Descriptor.reserved 0x18FFFFFFFFFFFFFF#64 = 0#3 ∧ Descriptor.op 0x18FFFFFFFFFFFFFF#64 = 1#4) ∧
    (Descriptor.reserved 0x28FFFFFFFFFFFFFF#64 = 0#3 ∧ Descriptor.op 0x28FFFFFFFFFFFFFF#64 = 2#4) ∧
    (Descriptor.reserved 0x48FFFFFFFFFFFFFF#64 = 0#3 ∧ Descriptor.op 0x48FFFFFFFFFFFFFF#64 = 4#4) ∧
    (Descriptor.reserved 0x58FFFFFFFFFFFFFF#64 = 0#3 ∧ Descriptor.op 0x58FFFFFFFFFFFFFF#64 = 5#4) := by decide

theorem test_witness_StepRunsDecodedInstruction :
    ((start.withFetchWord 64 0x105A000000000000).pending =
        .request 0x105A000000000000 [] (some GlyphSource.zero) :: [] ∧
      decode start.cfg (.request 0x105A000000000000 [] (some GlyphSource.zero)) = .ok (.clear 0x5A)) ∧
    ((start.withFetchWord 9 0x012).pending = [] ∧ (start.withFetchWord 9 0x012).exec = true ∧
      (start.withFetchWord 9 0x012).frames = [0x012] :: [] ∧ decode start.cfg (.frame [0x012]) = .ok .cmdSwReset) := by
  decide

theorem test_witness_StepWaitsForInput :
    (State.reset.pending = [] ∧ State.reset.exec = false) ∧ halted.pending = [] ∧ halted.frames = [] :=
  ⟨⟨rfl, rfl⟩, rfl, rfl⟩

/-- A request, a core reset and nothing to do, from a state without frames of its own. -/
theorem test_witness_InternalSequencesNotRequestable :
    decode Config.default (.request 0x105A000000000000 [] none) = .ok (.clear 0x5A) ∧ tinyStart.frames = [] ∧
      (∃ t, step (tinyStart.withFetchWord 64 0x105A000000000000) = .next t) ∧
      (∃ t, step { tinyStart with pending := [.coreReset] } = .next t) ∧ ∃ t, step tinyStart = .next t :=
  ⟨by decide, rfl, answers (by decide), answers (by decide), answers (by decide)⟩

theorem test_witness_CoreResetFromEveryState :
    ({ halted with pending := [.coreReset] } : State).pending = .coreReset :: [] := rfl

theorem test_witness_HaltedRefusesEverything :
    ((halted.withFetchWord 64 0).pstate = .halted ∧
      (halted.withFetchWord 64 0).pending = .request 0 [] (some GlyphSource.zero) :: []) ∧
    (halted.withFetchWord 9 0x012).pstate = .halted ∧ (halted.withFetchWord 9 0x012).pending = [] ∧
      (halted.withFetchWord 9 0x012).exec = true ∧ (halted.withFetchWord 9 0x012).frames = [0x012] :: [] :=
  ⟨⟨rfl, rfl⟩, rfl, rfl, rfl, rfl⟩

theorem test_witness_HaltedLeftOnlyByCoreReset :
    halted.pstate = .halted ∧ (∃ t, step halted = .next t) ∧
      ∃ t, step { halted with pending := [.coreReset] } = .next t := ⟨rfl, ⟨_, rfl⟩, ⟨_, rfl⟩⟩

theorem test_witness_RequestDuringOperationRefused :
    ∃ s : State, s.pstate ≠ .halted ∧ s.exec = true ∧ s.pending = .request 0xFFFF000000000000 [] none :: [] :=
  ⟨{ start with exec := true, pending := [.request 0xFFFF000000000000 [] none] }, by decide, rfl, rfl⟩

/-- A state in which a request waits. -/
def waiting (d : Descriptor) : State := { start with pending := [.request d [] none] }

theorem test_witness_ReservedEncodingRefused :
    (∀ d, (waiting d).pstate ≠ .halted ∧ (waiting d).exec = false ∧
      (waiting d).pending = .request d [] none :: []) ∧
    6 ≤ (Descriptor.op 0x6000000000000000#64).toNat ∧ 6 ≤ (Descriptor.op 0xF000000000000000#64).toNat ∧
    Descriptor.reserved 0x0100000000000000#64 ≠ 0#3 ∧ Descriptor.reserved 0x5700000000000000#64 ≠ 0#3 :=
  ⟨fun _ => ⟨PState.noConfusion, rfl, rfl⟩, by decide⟩

theorem test_witness_AcceptedByState :
    start.ready ∧ start.pstate = .uninitialized ∧ idle.ready ∧ idle.pstate = .idle ∧
      glyphTableCheck (some font) = none ∧ glyphTableCheck none = none :=
  ⟨start_ready, rfl, idle_ready, rfl, by decide, rfl⟩

/-- The font with one byte too few. -/
theorem test_witness_ShortGlyphTableRefused :
    start.pstate ≠ .halted ∧ start.exec = false ∧
      ({ font with byteTable := font.byteTable.drop 1 } : GlyphSource).byteTable.length <
        (font.lastCode.toNat - font.firstCode.toNat + 1) * font.cellHeight.toNat * ((font.cellWidth.toNat + 7) / 8) :=
  ⟨by decide, rfl, by decide⟩

/-- Each bound, at the first value outside it. -/
theorem test_witness_BadConfigurationRefused :
    ∀ cfg ∈ [{ tiny with ramWidth := 7 }, { tiny with ramWidth := 20 }, { tiny with ramHeight := 0 },
        { tiny with ramHeight := 65537 }, { tiny with ramWidth := 2056 }, { tiny with busyPollMax := 0 },
        { tiny with stripePeriod := 0 }, { tiny with checkerBlockRows := 0 }, { tiny with borderWaveformData := [] },
        { tiny with tempSensorData := [] }, { tiny with duc1Data := [] }, { tiny with coordBits := 0 },
        { tiny with coordBits := 17 }, { tiny with textLenBits := 0 }, { tiny with textLenBits := 17 }],
      cfg.wf = false ∧
      (cfg.ramWidth < 8 ∨ cfg.ramWidth % 8 ≠ 0 ∨ cfg.ramHeight < 1 ∨ 65536 < cfg.ramHeight ∨
        255 < cfg.ramWidth / 8 - 1 ∨ cfg.busyPollMax < 1 ∨ cfg.stripePeriod < 1 ∨ cfg.checkerBlockRows < 1 ∨
        cfg.borderWaveformData = [] ∨ cfg.tempSensorData = [] ∨ cfg.duc1Data = [] ∨
        cfg.coordBits < 1 ∨ 16 < cfg.coordBits ∨ cfg.textLenBits < 1 ∨ 16 < cfg.textLenBits) := by
  decide

theorem test_witness_PixelToBitBijection :
    Config.default.wf = true ∧ (127 < Config.default.ramWidth ∧ 295 < Config.default.ramHeight) ∧
      4735 < Config.default.fbSize := by decide

theorem test_witness_PixelWriteChangesOneBit :
    tinyStart.cfg.wf = true ∧ 15 < tinyStart.cfg.ramWidth ∧ 3 < tinyStart.cfg.ramHeight ∧
      (14 < tinyStart.cfg.ramWidth ∧ (14 ≠ 15 ∨ 3 ≠ 3)) ∧ 0 ≠ byteIndex tinyStart.cfg 15 3 := by decide

theorem test_witness_ClearFillsFramebuffer : start.ready ∧ tinyStart.ready := ⟨start_ready, tinyStart_ready⟩

theorem test_witness_FillPatternStripes :
    start.ready ∧ 288 < start.cfg.ramHeight ∧ 288 % start.cfg.stripePeriod = 0 ∧ 295 < start.cfg.ramHeight ∧
      15 < start.cfg.rowStride := ⟨start_ready, by decide⟩

theorem test_witness_FillCheckerboardFormula :
    start.ready ∧ 295 < start.cfg.ramHeight ∧ 15 < start.cfg.rowStride := ⟨start_ready, by decide⟩

theorem test_witness_OnlyDrawingWritesFramebuffer :
    (∃ t, exec (.clear 0xFF) tinyStart = .next t) ∧ ∃ t, exec .initPanel tinyStart = .next t :=
  ⟨answers (by decide), answers (by decide)⟩

theorem test_witness_RotationBijection :
    onCanvas Config.default 0 0 ∧ onCanvas Config.default 295 127 ∧
      ((0 : Int) ≤ 127 ∧ (127 : Int) < (Config.default.ramWidth : Int)) ∧
      ((0 : Int) ≤ 295 ∧ (295 : Int) < (Config.default.ramHeight : Int)) := by
  unfold onCanvas
  decide

/-- The corners, and the four neighbours just outside. -/
theorem test_witness_PlotWritesIffOnCanvas :
    onCanvas start.cfg 0 0 ∧ onCanvas start.cfg 295 127 ∧ ¬ onCanvas start.cfg 296 127 ∧
      ¬ onCanvas start.cfg 295 128 ∧ ¬ onCanvas start.cfg (-1) 0 ∧ ¬ onCanvas start.cfg 0 (-1) := by
  unfold onCanvas
  decide

theorem test_witness_DrawTextWithoutGlyphSource : start.ready := start_ready

theorem test_witness_DrawTextCompletes :
    glyphTableCheck (some font) = none ∧ start.ready ∧ halted.pstate = .halted ∧
      ∃ s : State, s.pstate ≠ .halted ∧ s.exec = true :=
  ⟨by decide, start_ready, rfl, { start with exec := true }, by decide, rfl⟩

theorem drawText_answers : ∃ t, exec (.drawText 0 0 [0x41, 0x3F] (some font) 0x00) tinyStart = .next t :=
  answers (by decide)

theorem test_witness_DrawTextWarnings : ∃ t, exec (.drawText 0 0 [0x41, 0x3F] (some font) 0x00) tinyStart = .next t :=
  drawText_answers

theorem test_witness_CursorAdvance : ∃ t, exec (.drawText 0 0 [0x41, 0x3F] (some font) 0x00) tinyStart = .next t :=
  drawText_answers

/-- Ink of the 'A' at the logical position (0, 0), which is the RAM pixel (15, 0); none at (15, 3). -/
theorem test_witness_DrawTextInk :
    (∃ t, exec (.drawText 0 0 [0x41, 0x3F] (some font) 0x00) tinyStart = .next t) ∧
      (15 < tinyStart.cfg.ramWidth ∧ 0 < tinyStart.cfg.ramHeight ∧ 3 < tinyStart.cfg.ramHeight) ∧
      inkAt font [0x41, 0x3F] 0 0 ((0 : Nat) : Int) (((tinyStart.cfg.ramWidth : Int) - 1) - ((15 : Nat) : Int)) ∧
      ¬ inkAt font [0x41, 0x3F] 0 0 ((3 : Nat) : Int) (((tinyStart.cfg.ramWidth : Int) - 1) - ((15 : Nat) : Int)) := by
  refine ⟨drawText_answers, by decide, ⟨0, 0x41, 0, 0, by decide⟩, ?_⟩
  rintro ⟨k, code, row, col, hk, hs, hr, hc, hb, hx, hy⟩
  match k with
  | 0 =>
    simp only [List.getElem?_cons_zero, Option.some.injEq] at hk
    subst hk
    have h1 : col = 3 := by simp at hx; omega
    have h2 : row = 0 := by simp [tinyStart, tiny] at hy; omega
    subst h1; subst h2
    revert hb
    decide
  | 1 =>
    simp only [List.getElem?_cons_succ, List.getElem?_cons_zero, Option.some.injEq] at hk
    subst hk
    revert hs
    decide
  | n + 2 => simp at hk

theorem test_witness_SkippedCharacterLeavesCanvas :
    font.supports 0x3F = false ∧
      (∃ t, exec (.drawText 0 0 ([0x41] ++ 0x3F :: [0x42]) (some font) 0x00) tinyStart = .next t) ∧
      ∃ u, exec (.drawText 0 0 ([0x41] ++ [0x42]) (some font) 0x00) tinyStart = .next u :=
  ⟨by decide, answers (by decide), answers (by decide)⟩

theorem clear_one : start.pstate ≠ .halted ∧ start.cfg.wf = true ∧ start.linkClear 1 :=
  ⟨by decide, by decide, linkClear_mono start_linkClear (by decide)⟩

theorem test_witness_SendCommandFrame : start.pstate ≠ .halted ∧ start.cfg.wf = true ∧ start.linkClear 1 := clear_one

theorem test_witness_SendDataFrame : start.pstate ≠ .halted ∧ start.cfg.wf = true ∧ start.linkClear 1 := clear_one

/-- Lengths 1 and FB_SIZE, and the two just outside. -/
theorem test_witness_SendDataBlockFrame :
    tinyStart.pstate ≠ .halted ∧ tinyStart.cfg.wf = true ∧ tinyStart.linkClear 1 ∧
      (1 ≤ [0x00#8].length ∧ [0x00#8].length ≤ tinyStart.cfg.fbSize) ∧
      (1 ≤ (List.replicate 8 0x00#8).length ∧ (List.replicate 8 0x00#8).length ≤ tinyStart.cfg.fbSize) ∧
      ([] : List Byte).length = 0 ∧ tinyStart.cfg.fbSize < (List.replicate 9 0x00#8).length :=
  ⟨by decide, by decide, linkClear_mono tinyStart_linkClear (by decide), by decide, by decide, rfl, by decide⟩

theorem test_witness_TransportCallFaults :
    (failing 0 start).pstate ≠ .halted ∧ (failing 0 start).cfg.wf = true ∧ (failing 0 start).linkAnswer 0 = 1#1 ∧
      1 ≤ [0x00#8].length ∧ [0x00#8].length ≤ (failing 0 start).cfg.fbSize := by decide

theorem test_witness_LittleEndianParameter : 65535 < 65536 := by decide

theorem test_witness_PanelCommandsSendParameters :
    ∀ k ∈ PanelCommand.all.filter (· ≠ .writeRamBw), k ≠ .writeRamBw ∧ start.pstate ≠ .halted ∧
      start.cfg.wf = true ∧ start.linkClear (panelCalls start.cfg k) := by
  intro k hk
  refine ⟨by simpa using (List.mem_filter.1 hk).2, by decide, by decide, linkClear_mono start_linkClear ?_⟩
  revert k
  decide

theorem test_witness_WriteRamSendsFramebuffer :
    start.pstate ≠ .halted ∧ start.cfg.wf = true ∧ start.fb.wf ∧ start.linkClear 2 :=
  ⟨by decide, by decide, by decide, linkClear_mono start_linkClear (by decide)⟩

/-- A panel that answers busy `n` times and then not. -/
def busyThenFree (n : Nat) : State := { start with env := { quiet with busyAnswers := List.replicate n 1#1 ++ [0#1] } }

theorem test_witness_WaitBusyBounded :
    (0 < (busyThenFree 0).cfg.busyPollMax ∧ (busyThenFree 0).busyFor 0 ∧
      (busyThenFree 0).busyAnswer 0 ≠ (busyThenFree 0).cfg.busyActiveLevel) ∧
    (399 < (busyThenFree 399).cfg.busyPollMax ∧ (busyThenFree 399).busyFor 399 ∧
      (busyThenFree 399).busyAnswer 399 ≠ (busyThenFree 399).cfg.busyActiveLevel) ∧
    (busyThenFree 400).busyFor (busyThenFree 400).cfg.busyPollMax := by
  unfold State.busyFor
  decide +kernel

theorem test_witness_InitializeCompletes :
    start.pstate = .uninitialized ∧ start.exec = false ∧ start.cfg.wf = true ∧
      start.linkClear (initCalls start.cfg) :=
  ⟨rfl, rfl, by decide, linkClear_mono start_linkClear (by decide)⟩

theorem test_witness_InitializeFrameTrace :
    start.cfg = Config.default ∧ start.pstate = .uninitialized ∧ start.exec = false ∧ start.linkClear 27 ∧
      ∀ k, k < 3 → start.busyAnswer k = 0#1 :=
  ⟨rfl, rfl, rfl, linkClear_mono start_linkClear (by decide), by decide⟩

theorem test_witness_DisplayCompletes :
    idle.pstate = .idle ∧ idle.exec = false ∧ idle.cfg.wf = true ∧ idle.linkClear 10 :=
  ⟨rfl, rfl, by decide, linkClear_mono idle_linkClear (by decide)⟩

theorem test_witness_DisplayFrameTrace :
    idle.pstate = .idle ∧ idle.exec = false ∧ idle.cfg.wf = true ∧ idle.fb.wf ∧ idle.linkClear 10 ∧
      idle.busyAnswer 0 ≠ idle.cfg.busyActiveLevel :=
  ⟨rfl, rfl, by decide, by decide, linkClear_mono idle_linkClear (by decide), by decide⟩

/-- The first and the last Transport call of both operations. -/
theorem test_witness_BusFaultAbortsOperation :
    (∀ j ∈ [0, 26], (failing j start).exec = false ∧ (failing j start).cfg.wf = true ∧
      (failing j start).pstate = .uninitialized ∧ j < initCalls (failing j start).cfg ∧
      (failing j start).linkClear j ∧ (failing j start).linkAnswer j = 1#1) ∧
    (∀ j ∈ [0, 9], (failing j idle).exec = false ∧ (failing j idle).cfg.wf = true ∧ (failing j idle).pstate = .idle ∧
      j < 10 ∧ (failing j idle).linkClear j ∧ (failing j idle).linkAnswer j = 1#1) := by
  unfold State.linkClear
  decide

/-- A state between operations that is not the reset state, before a CLEAR. -/
theorem test_witness_StepPreservesInvariant :
    Inv (tinyIdle.withFetchWord 64 0x105A000000000000) ∧
      ∃ t, step (tinyIdle.withFetchWord 64 0x105A000000000000) = .next t := by
  refine ⟨⟨by decide, by decide, .inr (.inl rfl), by decide, by decide, (fun h => by cases h), by decide, by decide,
    ?_, ?_, ?_, fun _ => rfl, by decide⟩, answers (by decide)⟩ <;> intro v h <;> cases h

theorem test_witness_ProtocolTransitions :
    (∃ t, exec .initPanel tinyStart = .next t) ∧ (∃ t, exec .display (failing 3 tinyIdle) = .next t) ∧
      ∃ t, exec .cmdSwReset (failing 0 tinyStart) = .next t :=
  ⟨answers (by decide), answers (by decide), answers (by decide)⟩

theorem test_witness_LogsOnlyGrow :
    ∃ s : State, s.wflags = ⟨true, true, true⟩ ∧ ∃ t, exec .fillPattern s = .next t :=
  ⟨{ tinyStart with wflags := ⟨true, true, true⟩ }, rfl, answers (by decide)⟩

/-- An operation that completes, and one that a bus fault ends. -/
theorem test_witness_ResponseCarriesWarnings :
    (∃ s t : State, s.pending = .request 0x3000000000000000 [] none :: [] ∧ step s = .next t ∧
      t.pstate ≠ .halted) ∧
    (∃ s t : State, s.pending = .request 0 [] none :: [] ∧ step s = .next t ∧ t.pstate = .halted) := by
  obtain ⟨t, ht, hp⟩ := next_of_isNext (o := step { tinyStart with pending :=
    [.request 0x3000000000000000 [] none] }) (p := fun t => decide (t.pstate ≠ .halted)) (by decide)
  obtain ⟨u, hu, hq⟩ := next_of_isNext (o := step { failing 5 tinyStart with pending :=
    [.request 0 [] none] }) (p := fun t => decide (t.pstate = .halted)) (by decide)
  exact ⟨⟨_, t, rfl, ht, by simpa using hp⟩, ⟨_, u, rfl, hu, by simpa using hq⟩⟩

theorem test_witness_EveryAcceptedOperationTerminates :
    start.ready ∧ start.pstate = .uninitialized ∧ idle.ready ∧ idle.pstate = .idle ∧
      glyphTableCheck (some font) = none := ⟨start_ready, rfl, idle_ready, rfl, by decide⟩

theorem test_witness_OnlyThirteenCommandsSent :
    ∃ s t : State, s.pending = .request 0 [] none :: [] ∧ step s = .next t := by
  obtain ⟨t, ht⟩ := answers (o := step { tinyStart with pending := [.request 0 [] none] }) (by decide)
  exact ⟨_, t, rfl, ht⟩

theorem test_witness_DrawingStaysOffTheLink :
    (∃ t, exec (.clear 0x00) tinyStart = .next t) ∧ (∃ t, exec .fillPattern tinyStart = .next t) ∧
      (∃ t, exec .fillCheckerboard tinyStart = .next t) ∧
      ∃ t, exec (.drawText 0 0 [0x41, 0x3F] (some font) 0x00) tinyStart = .next t :=
  ⟨answers (by decide), answers (by decide), answers (by decide), drawText_answers⟩

end Sys2Proof.Tests
end

section
/-! SUPPORT. Every instruction is a host operation, an internal sequence or a block; none runs under an illegal
configuration (00_scope.md R6). -/

namespace Sys2Proof.Machine

/-- An instruction's meaning goes through `request` or through `internal`; a block's length is checked before. -/
theorem exec_forms (i : Instr) (s : State) :
    (∃ op check body, exec i s = request op check body s) ∨ (∃ acts, exec i s = internal acts s) ∨
      ∃ bytes, i = .sendDataBlock bytes := by
  cases i
  case initPanel | clear | display | drawText | fillPattern | fillCheckerboard => exact .inl ⟨_, _, _, rfl⟩
  case sendDataBlock bytes => exact .inr (.inr ⟨bytes, rfl⟩)
  all_goals exact .inr (.inl ⟨_, rfl⟩)

/-- A block is refused or is its one statement as an internal step. -/
theorem exec_sendDataBlock_cases (bytes : List Byte) (s : State) :
    (∃ r, exec (.sendDataBlock bytes) s = .refused r) ∨
      exec (.sendDataBlock bytes) s = internal [.sendDataBlock bytes] s := by
  rw [show exec (.sendDataBlock bytes) s = execSendDataBlock bytes s from rfl, execSendDataBlock]
  split
  · exact .inl ⟨_, rfl⟩
  · split
    · exact .inl ⟨_, rfl⟩
    · exact .inr rfl

theorem request_refused_of_illegal (op : Operation) (check : Option Refusal) (body : State → State) {s : State}
    (h : ¬ s.cfg.wf = true) : ∃ r, request op check body s = .refused r := by
  have hc : s.configCheck = some .badConfiguration := by simp [State.configCheck, h]
  rw [request, hc]
  cases s.admission <|> check with
  | none => exact ⟨_, rfl⟩
  | some r => exact ⟨r, rfl⟩

theorem internal_refused_of_illegal (acts : List Act) {s : State} (h : ¬ s.cfg.wf = true) :
    ∃ r, internal acts s = .refused r := by
  rw [internal, if_neg h]
  split <;> exact ⟨_, rfl⟩

theorem exec_refused_of_illegal (i : Instr) {s : State} (h : ¬ s.cfg.wf = true) : ∃ r, exec i s = .refused r := by
  obtain ⟨op, check, body, he⟩ | ⟨acts, he⟩ | ⟨bytes, rfl⟩ := exec_forms i s
  · exact he ▸ request_refused_of_illegal op check body h
  · exact he ▸ internal_refused_of_illegal acts h
  · rcases exec_sendDataBlock_cases bytes s with hr | he
    · exact hr
    · exact he ▸ internal_refused_of_illegal _ h

end Sys2Proof.Machine
end

section
/-! SUPPORT. The fields of any descriptor as numbers, and the operands of a DRAWTEXT (30_encoding.md R77, R78). -/

namespace Sys2Proof

theorem Descriptor.op_toNat (d : Descriptor) : d.op.toNat = d.toNat / 2 ^ 60 := by
  have := d.isLt
  simp only [Descriptor.op, BitVec.extractLsb'_toNat, Nat.shiftRight_eq_div_pow]
  omega

theorem Descriptor.g_toNat (d : Descriptor) : d.g.toNat = d.toNat / 2 ^ 59 % 2 := by
  simp only [Descriptor.g, BitVec.extractLsb'_toNat, Nat.shiftRight_eq_div_pow, pow_one]

theorem Descriptor.reserved_toNat (d : Descriptor) : d.reserved.toNat = d.toNat / 2 ^ 56 % 8 := by
  simp only [Descriptor.reserved, BitVec.extractLsb'_toNat, Nat.shiftRight_eq_div_pow, Nat.reducePow]

theorem Descriptor.x_toNat (d : Descriptor) : d.x.toNat = d.toNat / 2 ^ 32 % 2 ^ 16 := by
  simp only [Descriptor.x, BitVec.extractLsb'_toNat, Nat.shiftRight_eq_div_pow]

theorem Descriptor.y_toNat (d : Descriptor) : d.y.toNat = d.toNat / 2 ^ 16 % 2 ^ 16 := by
  simp only [Descriptor.y, BitVec.extractLsb'_toNat, Nat.shiftRight_eq_div_pow]

theorem Descriptor.len_toNat (d : Descriptor) : d.len.toNat = d.toNat % 2 ^ 16 := by
  simp only [Descriptor.len, BitVec.extractLsb'_toNat, Nat.shiftRight_zero]

theorem Descriptor.g_eq_one_iff (d : Descriptor) : d.g = 1#1 ↔ d.toNat / 2 ^ 59 % 2 = 1 := by
  rw [← Descriptor.g_toNat, ← BitVec.toNat_inj]
  rfl

/-- A number's low `m` bits are those of its low `n` bits. -/
theorem mod_two_pow_mod_of_le (a : Nat) {m n : Nat} (h : m ≤ n) : a % 2 ^ n % 2 ^ m = a % 2 ^ m :=
  Nat.mod_mod_of_dvd a (pow_dvd_pow 2 h)

/-- A coordinate of at most 16 bits is its field's low bits as a two's complement number. -/
theorem Config.coord_eq {cfg : Config} (h : cfg.coordBits ≤ 16) (f : Field16) :
    cfg.coord f = let v : Nat := f.toNat % 2 ^ cfg.coordBits
      if 2 * v < 2 ^ cfg.coordBits then (v : Int) else (v : Int) - 2 ^ cfg.coordBits := by
  rw [Config.coord, BitVec.signExtend_eq_setWidth_of_le f h, BitVec.toInt_eq_toNat_cond, BitVec.toNat_setWidth]
  push_cast
  rfl

theorem decode_request_drawText (cfg : Config) {d : Descriptor} (hr : d.reserved = 0#3) (ho : d.op.toNat = 3)
    (text : List Byte) (glyphs : Option GlyphSource) :
    decode cfg (.request d text glyphs) = decodeDrawText cfg d text glyphs := by
  simp [decode, decodeRequest, hr, ho]

/-- With a glyph source and a text that is long enough every operand is read from its field. -/
theorem decodeDrawText_ok (cfg : Config) (d : Descriptor) {text : List Byte} (gs : GlyphSource)
    (h : cfg.textLen d.len ≤ text.length) :
    decodeDrawText cfg d text (some gs) =
      .ok (.drawText (cfg.coord d.x) (cfg.coord d.y) (text.take (cfg.textLen d.len))
        (if d.g = 1#1 then some gs else none) d.arg8) := by
  rcases Machine.level_cases d.g with hg | hg
  · simp [decodeDrawText, hg]
  · simp [decodeDrawText, hg, Nat.not_lt.2 h]

end Sys2Proof
end

section
/-! CERTIFICATE. The statements of 00_scope.md: O8, O18, O56. -/

namespace Sys2Proof.Machine

/-- Settles O8: what the step fetches is the request or, with none waiting, the sequencer's own frame. -/
theorem stepRunsDecodedInstruction : Obligations.StepRunsDecodedInstruction := by
  refine ⟨fun s d text glyphs rest i hp hd => ?_, fun s symbols rest i hp he hf hd => ?_⟩
  · exact step_words (fetch_request hp) hd
  · exact step_words (fetch_frame hp ((ownFrames_busy he).trans hf)) hd

/-- Settles O18: each of the bounds is one of a legal configuration's, and without one no instruction runs. -/
theorem badConfigurationRefused : Obligations.BadConfigurationRefused := by
  intro s i hbad
  refine exec_refused_of_illegal i fun hwf => ?_
  obtain ⟨_, _, _, _, _, _, _, _, hborder, htemp, hduc, _, _, _, _⟩ := Config.wf_bounds hwf
  simp only [hborder, htemp, hduc, false_or] at hbad
  omega

/-- Settles O56: a legal width is at most 16, so the operand's bits are the low bits of the descriptor's field. -/
theorem operandWidths : Obligations.OperandWidths := by
  intro cfg d text gs hwf hres hop hlen
  obtain ⟨-, -, -, -, -, -, -, -, -, -, -, -, hcoord, -, htext⟩ := Config.wf_bounds hwf
  have hr : d.reserved = 0#3 := BitVec.eq_of_toNat_eq (d.reserved_toNat.trans hres)
  have hl : cfg.textLen d.len = d.toNat % 2 ^ cfg.textLenBits := by
    rw [Config.textLen, d.len_toNat, mod_two_pow_mod_of_le _ htext]
  refine ⟨cfg.coord d.x, cfg.coord d.y, d.arg8, ?_, ?_, ?_⟩
  · rw [decode_request_drawText cfg hr (d.op_toNat.trans hop), decodeDrawText_ok cfg d gs (hl ▸ hlen), hl]
    simp only [d.g_eq_one_iff]
  · rw [Config.coord_eq hcoord, d.x_toNat, mod_two_pow_mod_of_le _ hcoord]
  · rw [Config.coord_eq hcoord, d.y_toNat, mod_two_pow_mod_of_le _ hcoord]

end Sys2Proof.Machine
end

section
/-! SUPPORT. What an instruction that answers a state has done, said once: a drawing operation, one of the two panel
operations, or an internal sequence; and that each only adds to TRACE, WARNLOG and the sticky flags (10_state.md R14,
R20, R21, R30). -/

namespace Sys2Proof.Machine

/-! ### The logs -/

/-- What every part of an instruction keeps of the logs, and that it leaves the parameters and what comes next alone. -/
structure LogsGrow (s t : State) : Prop where
  cfg : t.cfg = s.cfg
  epoch : t.epoch = s.epoch
  pending : t.pending = s.pending
  frames : t.frames = s.frames
  trace : s.trace <+: t.trace
  warns : ∃ ws, t.warnlog = s.warnlog ++ ws ∧ t.wflags = ws.foldl WFlags.set s.wflags

theorem LogsGrow.trans {s t u : State} (h : LogsGrow s t) (h' : LogsGrow t u) : LogsGrow s u := by
  obtain ⟨ws, hlog, hflags⟩ := h.warns
  obtain ⟨ws', hlog', hflags'⟩ := h'.warns
  exact ⟨h'.cfg.trans h.cfg, h'.epoch.trans h.epoch, h'.pending.trans h.pending, h'.frames.trans h.frames,
    h.trace.trans h'.trace,
    ws ++ ws', by rw [hlog', hlog, List.append_assoc], by rw [hflags', hflags, List.foldl_append]⟩

theorem SeqEffect.logsGrow {s t : State} (h : SeqEffect s t) : LogsGrow s t := by
  obtain ⟨es, he⟩ := h.events
  exact ⟨h.cfg, h.epoch, h.pending, h.frames, ⟨es, he.symm⟩, h.warns⟩

theorem accept_logsGrow (op : Operation) (s : State) : LogsGrow s (accept op s) :=
  ⟨rfl, rfl, rfl, rfl, List.prefix_rfl, [], by simp⟩

theorem complete_logsGrow (logged : Nat) (s : State) : LogsGrow s (complete logged s) := by
  by_cases h : s.pstate = .halted
  · rw [complete_halted _ _ h]
    exact ⟨rfl, rfl, rfl, rfl, List.prefix_rfl, [], by simp⟩
  · rw [complete_ok _ _ h]
    exact ⟨rfl, rfl, rfl, rfl, List.prefix_rfl, [], by simp⟩

/-- A flag that is set stays set through any warnings (10_state.md R20). -/
theorem WFlags.foldl_set_sticky (ws : List Warning) (f : WFlags) :
    (f.busyTimeout = true → (ws.foldl WFlags.set f).busyTimeout = true) ∧
    (f.glyphSkipped = true → (ws.foldl WFlags.set f).glyphSkipped = true) ∧
    (f.noGlyphSource = true → (ws.foldl WFlags.set f).noGlyphSource = true) := by
  induction ws generalizing f with
  | nil => exact ⟨id, id, id⟩
  | cons w ws ih =>
    obtain ⟨hbusy, hskip, hnone⟩ := ih (f.set w)
    cases w with
    | busyTimeout site => exact ⟨fun _ => hbusy rfl, hskip, hnone⟩
    | glyphSkipped index code => exact ⟨hbusy, fun _ => hskip rfl, hnone⟩
    | noGlyphSource => exact ⟨hbusy, hskip, fun _ => hnone rfl⟩

/-- The flags that a text's warnings set, one by one, are the one flag DRAWTEXT's loop is known to set. -/
theorem foldl_set_skipWarnings (gs : GlyphSource) (index : Nat) (text : List Byte) (f : WFlags) :
    (skipWarnings gs index text).foldl WFlags.set f =
      { f with glyphSkipped := f.glyphSkipped || text.any (fun code => !gs.supports code) } := by
  induction text generalizing index f with
  | nil => simp [skipWarnings]
  | cons code text ih =>
    cases h : gs.supports code with
    | true => simp [skipWarnings, h, ih]
    | false => simp [skipWarnings, h, ih, WFlags.set]

/-! ### The drawing operations -/

/-- What the body of a drawing operation does: beside the framebuffer, whose form it keeps, it changes only working
registers and adds warnings. -/
structure DrawEffect (s t : State) : Prop where
  logs : LogsGrow s t
  trace : t.trace = s.trace
  pstate : t.pstate = s.pstate
  exec : t.exec = s.exec
  cs : t.cs = s.cs
  dc : t.dc = s.dc
  rst : t.rst = s.rst
  env : t.env = s.env
  response : t.response = s.response
  busFault : t.busFault = s.busFault
  fbOk : FbOk s → FbOk t

theorem fillFb_drawEffect (f : Nat → Byte) (s : State) : DrawEffect s (fillFb f s) where
  logs := ⟨rfl, rfl, rfl, rfl, List.prefix_rfl, [], by simp⟩
  trace := rfl
  pstate := rfl
  exec := rfl
  cs := rfl
  dc := rfl
  rst := rfl
  env := rfl
  response := rfl
  busFault := rfl
  fbOk h := ⟨Memory.wf_fill h.wf _ _, Memory.bound_fill h.inRange _⟩

/-- A change of the framebuffer, the working registers and the warnings that keeps the framebuffer's form and logs what
it flags. -/
theorem DrawFrame.drawEffect {s t : State} (h : DrawFrame s t)
    (warns : ∃ ws, t.warnlog = s.warnlog ++ ws ∧ t.wflags = ws.foldl WFlags.set s.wflags)
    (fbOk : FbOk s → FbOk t) : DrawEffect s t := by
  have htrace : t.trace = s.trace := by rw [h]; rfl
  have hlogs : LogsGrow s t := ⟨h.cfg, by rw [h], by rw [h], by rw [h], ⟨[], by simp [htrace]⟩, warns⟩
  exact ⟨hlogs, htrace, by rw [h], by rw [h], by rw [h], by rw [h], by rw [h], by rw [h], by rw [h], by rw [h], fbOk⟩

theorem drawTextBody_drawEffect (x y : Int) (text : List Byte) (glyphs : Option GlyphSource) (color : Byte)
    (s : State) : DrawEffect s (drawTextBody x y text glyphs color s) := by
  cases glyphs with
  | none =>
    have hwarn : DrawFrame s (warn .noGlyphSource s) := rfl
    exact hwarn.drawEffect ⟨[.noGlyphSource], rfl, rfl⟩ fun h => ⟨h.wf, h.inRange⟩
  | some gs =>
    have hcursor : DrawFrame s (setCurX x s) := rfl
    have htext := drawChars_effect gs y color text 0 (setCurX x s)
    exact (hcursor.trans htext.frame).drawEffect
      ⟨skipWarnings gs 0 text, htext.warnlog, htext.wflags.trans (foldl_set_skipWarnings ..).symm⟩
      fun h => htext.fbOk ⟨h.wf, h.inRange⟩

/-! ### Every instruction -/

/-- The four drawing operations (10_state.md R14). -/
def IsDrawing (i : Instr) : Prop :=
  (∃ fill, i = .clear fill) ∨ i = .fillPattern ∨ i = .fillCheckerboard ∨
    ∃ x y text glyphs color, i = .drawText x y text glyphs color

/-- The sequence of an operation on the panel, and the PSTATE that it is accepted in (60_exceptions.md R173). -/
inductive PanelOperation (s : State) : Instr → List Act → Prop where
  | initPanel (h : s.pstate = .uninitialized) : PanelOperation s .initPanel (initActs s.cfg)
  | display (h : s.pstate = .idle) : PanelOperation s .display (displayActs s.cfg)

/-- What an instruction that answers `t` from `s` has done (`exec_effect`). -/
inductive ExecEffect (i : Instr) (s t : State) : Prop where
  /-- A drawing operation, its body between acceptance and completion. -/
  | drawing (op : Operation) (u : State) (hi : IsDrawing i) (ready : s.ready) (body : DrawEffect (accept op s) u)
      (ht : t = complete s.warnlog.length u)
  /-- INITIALIZE or DISPLAY, its sequence between acceptance and completion. -/
  | panel (op : Operation) (as : List Act) (hi : PanelOperation s i as) (ready : s.ready)
      (ht : t = complete s.warnlog.length (runActs as (accept op s)))
  /-- An internal sequence, which assigns no PSTATE. -/
  | sequence (as : List Act) (hi : isPublic i = false) (live : s.pstate ≠ .halted) (ha : ∀ p, .setState p ∉ as)
      (ht : t = runActs as s)

/-- A request that answers a state ran its body from a state that is ready. -/
theorem request_ran {op : Operation} {check : Option Refusal} {body : State → State} {s t : State}
    (h : request op check body s = .next t) :
    check = none ∧ s.ready ∧ t = complete s.warnlog.length (body (accept op s)) := by
  obtain ⟨hp, he, hc, hwf, ht⟩ := request_next h
  exact ⟨hc, ⟨hp, he, hwf⟩, ht⟩

theorem stateCheck_eq_none_iff (p : PState) (s : State) : stateCheck p s = none ↔ s.pstate = p := by
  simp [stateCheck]

/-- An instruction that no host can request is an internal sequence that assigns no PSTATE. -/
theorem exec_not_public {i : Instr} (hi : isPublic i = false) {s t : State} (h : exec i s = .next t) :
    ∃ as, (∀ p, .setState p ∉ as) ∧ internal as s = .next t := by
  cases i with
  | initPanel | clear | display | drawText | fillPattern | fillCheckerboard => cases hi
  | sendCommand c => exact ⟨[.sendCommand c], by simp, h⟩
  | sendData d => exact ⟨[.sendData d], by simp, h⟩
  | sendDataBlock bytes =>
    rcases exec_sendDataBlock_cases bytes s with ⟨r, hr⟩ | he
    · cases hr.symm.trans h
    · exact ⟨[.sendDataBlock bytes], by simp, he.symm.trans h⟩
  | _ => exact ⟨_, (panelActs_plain s.cfg _).1, h⟩

theorem exec_effect {i : Instr} {s t : State} (h : exec i s = .next t) : ExecEffect i s t := by
  cases hi : isPublic i with
  | false =>
    obtain ⟨as, ha, hn⟩ := exec_not_public hi h
    obtain ⟨live, -, ht⟩ := internal_next hn
    exact .sequence as hi live ha ht
  | true =>
    cases i with
    | initPanel =>
      obtain ⟨hc, ready, ht⟩ := request_ran h
      exact .panel _ _ (.initPanel ((stateCheck_eq_none_iff ..).1 hc)) ready ht
    | display =>
      obtain ⟨hc, ready, ht⟩ := request_ran h
      exact .panel _ _ (.display ((stateCheck_eq_none_iff ..).1 hc)) ready ht
    | clear fill =>
      obtain ⟨-, ready, ht⟩ := request_ran h
      exact .drawing _ _ (.inl ⟨fill, rfl⟩) ready (fillFb_drawEffect _ _) ht
    | fillPattern =>
      obtain ⟨-, ready, ht⟩ := request_ran h
      exact .drawing _ _ (.inr (.inl rfl)) ready (fillFb_drawEffect _ _) ht
    | fillCheckerboard =>
      obtain ⟨-, ready, ht⟩ := request_ran h
      exact .drawing _ _ (.inr (.inr (.inl rfl))) ready (fillFb_drawEffect _ _) ht
    | drawText x y text glyphs color =>
      obtain ⟨-, ready, ht⟩ := request_ran h
      exact .drawing _ _ (.inr (.inr (.inr ⟨x, y, text, glyphs, color, rfl⟩))) ready
        (drawTextBody_drawEffect ..) ht
    | _ => cases hi

/-- No sequence of an operation assigns Halted. -/
theorem PanelOperation.halted_not_mem {s : State} {i : Instr} {as : List Act} (h : PanelOperation s i as) :
    Act.setState .halted ∉ as := by
  have hk := fun k => (panelActs_plain s.cfg k).1 .halted
  cases h <;> simp [initActs, displayActs, panelSeq, hk]

theorem ExecEffect.live {i : Instr} {s t : State} (h : ExecEffect i s t) : s.pstate ≠ .halted := by
  cases h with
  | drawing _ _ _ ready | panel _ _ _ ready => exact ready.1
  | sequence _ _ live => exact live

theorem ExecEffect.logsGrow {i : Instr} {s t : State} (h : ExecEffect i s t) : LogsGrow s t := by
  cases h with
  | drawing op u _ _ body ht =>
    exact ht ▸ ((accept_logsGrow op s).trans body.logs).trans (complete_logsGrow _ _)
  | panel op as hi _ ht =>
    have hrun := (runActs_effect as (accept op s) hi.halted_not_mem).logsGrow
    exact ht ▸ ((accept_logsGrow op s).trans hrun).trans (complete_logsGrow _ _)
  | sequence as _ _ ha ht => exact ht ▸ (runActs_effect as s (ha _)).logsGrow

@[simp] theorem complete_fb (logged : Nat) (s : State) : (complete logged s).fb = s.fb := by
  unfold complete
  split <;> rfl

/-- An instruction that is no drawing operation leaves FB alone. -/
theorem ExecEffect.fb {i : Instr} {s t : State} (h : ExecEffect i s t) : IsDrawing i ∨ t.fb = s.fb := by
  cases h with
  | drawing _ _ hi => exact .inl hi
  | panel op as hi _ ht =>
    have hrun := (runActs_effect as (accept op s) hi.halted_not_mem).fb
    exact .inr (by rw [ht, complete_fb, hrun, accept_fb])
  | sequence as _ _ ha ht => exact .inr (ht ▸ (runActs_effect as s (ha _)).fb)

end Sys2Proof.Machine
end

section
/-! SUPPORT. The lines and the trace inside an operation: every statement of a sequence leaves each line at the level
the trace last drove it to and the select line stable under chip select (10_state.md R17, 40_transport.md R91, R95,
70_reset_and_hazards.md R193). -/

namespace Sys2Proof.Machine

/-- What the invariant says of the lines, which holds inside an operation too. -/
structure LinesHeld (s : State) : Prop where
  csRest : s.cs = if s.pstate = .halted then s.cfg.csActiveLevel else s.cfg.csIdleLevel
  rstHeld : ∀ v, lastRst s.trace = some v → s.rst = v
  dcHeld : ∀ v, lastDc s.trace = some v → s.dc = v
  csHeld : ∀ v, lastCs s.trace = some v → s.cs = v
  framed : wellFramed s.cfg false s.trace = true

/-- A line at the level the trace last drove it to still is after events that drive it to where it ends. -/
theorem held_append {before after : Option Level} {old : Level} (h : ∀ v, before = some v → old = v) :
    ∀ v, after.or before = some v → after.getD old = v := by
  cases after with
  | none => exact h
  | some w => simp

/-- With chip select deselected before, events that leave the lines where they last drive them and are well framed keep
the lines held. -/
theorem LinesHeld.append {s t : State} (h : LinesHeld s) (live : s.pstate ≠ .halted) (es : List Event)
    (hcfg : t.cfg = s.cfg) (htrace : t.trace = s.trace ++ es)
    (hrst : t.rst = (lastRst es).getD s.rst) (hdc : t.dc = (lastDc es).getD s.dc)
    (hcs : t.cs = (lastCs es).getD s.cs) (hframed : wellFramed s.cfg false es = true)
    (hrest : t.cs = if t.pstate = .halted then s.cfg.csActiveLevel else s.cfg.csIdleLevel) : LinesHeld t where
  csRest := by rw [hcfg, hrest]
  rstHeld := by rw [htrace, lastRst_append, hrst]; exact held_append h.rstHeld
  dcHeld := by rw [htrace, lastDc_append, hdc]; exact held_append h.dcHeld
  csHeld := by rw [htrace, lastCs_append, hcs]; exact held_append h.csHeld
  framed := by
    have hidle : s.cs = s.cfg.csIdleLevel := by rw [h.csRest, if_neg live]
    rw [hcfg, htrace, wellFramed_append, h.framed, Bool.true_and]
    cases hlast : lastCs s.trace with
    | none => exact hframed
    | some v =>
      have hv : (v == s.cfg.csActiveLevel) = false := by
        rw [← h.csHeld v hlast, hidle]
        exact beq_false_of_ne (csIdle_ne_active s.cfg)
      simpa only [hv] using hframed

theorem LinesHeld.transport {s : State} (h : LinesHeld s) (live : s.pstate ≠ .halted) (call : TransportCall)
    (level : Level) (bytes : List Byte) : LinesHeld (transport call level bytes s) := by
  rcases level_cases (s.linkAnswer 0) with hl | hl
  · rw [transport_ok _ _ _ _ live hl]
    exact h.append live (callEvents s.cfg level bytes) rfl (by simp [State.trace, callEvents]) rfl rfl rfl
      (by simp [callEvents, wellFramed]) (if_neg live).symm
  · rw [transport_fault _ _ _ _ hl]
    exact h.append live [.dc level, .cs s.cfg.csActiveLevel] rfl (by simp [State.trace]) rfl rfl rfl
      (by simp [wellFramed]) rfl

/-- STREAM_IDX is no line. -/
theorem LinesHeld.setStreamIdx {s : State} (h : LinesHeld s) (n : Nat) : LinesHeld (setStreamIdx n s) :=
  ⟨h.csRest, h.rstHeld, h.dcHeld, h.csHeld, h.framed⟩

theorem LinesHeld.sendDataBlock {s : State} (h : LinesHeld s) (live : s.pstate ≠ .halted) (bytes : List Byte) :
    LinesHeld (sendDataBlock bytes s) := by
  have hcall := (h.setStreamIdx 0).transport live .sendDataBlock 1#1 bytes
  rw [Machine.sendDataBlock]
  split
  · exact hcall
  · exact hcall.setStreamIdx _

theorem LinesHeld.hwReset {s : State} (h : LinesHeld s) (live : s.pstate ≠ .halted) : LinesHeld (hwReset s) := by
  rw [hwReset_eq]
  exact h.append live [.rst 1#1, .delay s.cfg.tResetSettleMs, .rst 0#1, .delay s.cfg.tResetLowMs, .rst 1#1,
    .delay s.cfg.tResetReleaseMs] rfl (by simp [State.trace]) rfl rfl rfl (by simp [wellFramed]) h.csRest

theorem LinesHeld.waitBusy {s : State} (h : LinesHeld s) (live : s.pstate ≠ .halted) (site : WaitSite) :
    LinesHeld (waitBusy site s) := by
  obtain ⟨frame, ⟨es, htrace, hwait, -⟩, -⟩ := waitBusy_effect site s
  obtain ⟨hrst, hdc, hcs, hframed, -⟩ := wait_events hwait s.cfg
  exact h.append live es (by rw [frame]) htrace (by rw [frame, hrst]; rfl) (by rw [frame, hdc]; rfl)
    (by rw [frame, hcs]; rfl) hframed (by rw [frame]; exact h.csRest)

theorem LinesHeld.runAct {s : State} (h : LinesHeld s) (live : s.pstate ≠ .halted) {a : Act}
    (ha : a ≠ .setState .halted) : LinesHeld (runAct a s) := by
  cases a with
  | setState p =>
    have hp : p ≠ .halted := fun hp => ha (hp ▸ rfl)
    have hrest : s.cs = if p = .halted then s.cfg.csActiveLevel else s.cfg.csIdleLevel := by
      rw [h.csRest, if_neg live, if_neg hp]
    exact ⟨hrest, h.rstHeld, h.dcHeld, h.csHeld, h.framed⟩
  | hwReset => exact h.hwReset live
  | waitBusy site => exact h.waitBusy live site
  | sendCommand c => exact h.transport live _ _ _
  | sendData d => exact h.transport live _ _ _
  | sendDataBlock bytes => exact h.sendDataBlock live _
  | sendFramebuffer => exact h.sendDataBlock live _

theorem LinesHeld.runActs {s : State} (h : LinesHeld s) {as : List Act} (ha : Act.setState .halted ∉ as) :
    LinesHeld (runActs as s) := by
  induction as generalizing s with
  | nil => exact h
  | cons a as ih =>
    by_cases hp : s.pstate = .halted
    · rw [runActs_halted _ _ hp]; exact h
    · rw [runActs_cons _ _ _ hp]
      exact ih (h.runAct hp fun e => ha (e ▸ List.mem_cons_self)) fun hm => ha (List.mem_cons_of_mem _ hm)

/-! ### Where a sequence ends -/

/-- A sequence ran through, so that PSTATE and RST are where its statements leave them, or a bus fault stopped it. -/
def EndsAs (as : List Act) (s t : State) : Prop :=
  t.pstate = .halted ∨ t.pstate = stateAfter as s.pstate ∧ t.rst = rstAfter as s.rst

/-- A Transport call is no statement that assigns PSTATE or drives RST. -/
theorem transport_endsAs (call : TransportCall) (level : Level) (bytes : List Byte) (s : State)
    (live : s.pstate ≠ .halted) : EndsAs [] s (transport call level bytes s) := by
  rcases level_cases (s.linkAnswer 0) with hl | hl
  · rw [transport_ok _ _ _ _ live hl]; exact .inr ⟨rfl, rfl⟩
  · rw [transport_fault _ _ _ _ hl]; exact .inl rfl

theorem sendDataBlock_endsAs (bytes : List Byte) (s : State) (live : s.pstate ≠ .halted) :
    EndsAs [] s (sendDataBlock bytes s) := by
  rcases level_cases (s.linkAnswer 0) with hl | hl
  · rw [sendDataBlock_ok _ _ live hl]; exact .inr ⟨rfl, rfl⟩
  · rw [sendDataBlock_fault _ _ hl]; exact .inl rfl

theorem runAct_endsAs (a : Act) (s : State) (live : s.pstate ≠ .halted) : EndsAs [a] s (runAct a s) := by
  cases a with
  | setState p => exact .inr ⟨rfl, rfl⟩
  | hwReset => rw [runAct, hwReset_eq]; exact .inr ⟨rfl, rfl⟩
  | waitBusy site =>
    obtain ⟨frame, -, -⟩ := waitBusy_effect site s
    refine .inr ⟨?_, ?_⟩ <;> rw [runAct, frame] <;> rfl
  | sendCommand c => exact transport_endsAs _ _ _ s live
  | sendData d => exact transport_endsAs _ _ _ s live
  | sendDataBlock bytes => exact sendDataBlock_endsAs bytes s live
  | sendFramebuffer => exact sendDataBlock_endsAs s.fbBytes s live

theorem runActs_endsAs (as : List Act) (s : State) : EndsAs as s (runActs as s) := by
  induction as generalizing s with
  | nil => exact .inr ⟨rfl, rfl⟩
  | cons a as ih =>
    by_cases hp : s.pstate = .halted
    · rw [runActs_halted _ _ hp]; exact .inl hp
    · rw [runActs_cons _ _ _ hp]
      rcases runAct_endsAs a s hp with hstop | ⟨hstate, hrst⟩
      · rw [runActs_halted _ _ hstop]; exact .inl hstop
      · have hrun := ih (runAct a s)
        rwa [EndsAs, hstate, hrst, ← stateAfter_append, ← rstAfter_append] at hrun

/-- Statements that assign no PSTATE leave it. -/
theorem stateAfter_plain {as : List Act} (h : ∀ p, Act.setState p ∉ as) (q : PState) : stateAfter as q = q := by
  induction as with
  | nil => rfl
  | cons a as ih =>
    have htail := ih fun p hm => h p (List.mem_cons_of_mem _ hm)
    cases a with
    | setState p => exact absurd List.mem_cons_self (h p)
    | _ => exact htail

/-- Statements without HWRESET leave RST. -/
theorem rstAfter_plain {as : List Act} (h : Act.hwReset ∉ as) (v : Level) : rstAfter as v = v := by
  induction as with
  | nil => rfl
  | cons a as ih =>
    have htail := ih fun hm => h (List.mem_cons_of_mem _ hm)
    cases a with
    | hwReset => exact absurd List.mem_cons_self h
    | _ => exact htail

/-- Both operations end in Idle. -/
theorem PanelOperation.stateAfter {s : State} {i : Instr} {as : List Act} (h : PanelOperation s i as) (q : PState) :
    stateAfter as q = .idle := by
  cases h <;> simp [initActs, displayActs, stateAfter_append, Machine.stateAfter]

/-- Several panel commands leave RST. -/
theorem rstAfter_panelSeq (cfg : Config) (ks : List PanelCommand) (v : Level) : rstAfter (panelSeq cfg ks) v = v := by
  apply rstAfter_plain
  simp [panelSeq, (panelActs_plain cfg _).2.1]

/-- INITIALIZE ends with RST released, as DISPLAY does where it begins so (10_state.md R17). -/
theorem PanelOperation.rstAfter {s : State} {i : Instr} {as : List Act} (h : PanelOperation s i as)
    (hidle : s.pstate = .idle → s.rst = 1#1) : rstAfter as s.rst = 1#1 := by
  cases h with
  | initPanel _ =>
    simp [initActs, rstAfter_append, Machine.rstAfter, rstAfter_panelSeq, rstAfter_plain (panelActs_plain s.cfg _).2.1]
  | display hp => simp [displayActs, rstAfter_append, Machine.rstAfter, rstAfter_panelSeq, hidle hp]

end Sys2Proof.Machine
end

section
/-! SUPPORT. The invariant inside an operation: acceptance enters it, the bodies of the six operations keep it, and
completion leaves it for the invariant between operations (10_state.md R12, R13, R20, R21). -/

namespace Sys2Proof.Machine

/-- `Inv` inside an operation, where EXEC is 1 and no response is given in any PSTATE. -/
structure OpInv (s : State) : Prop where
  fbOk : FbOk s
  lines : LinesHeld s
  restState : s.pstate = .uninitialized ∨ s.pstate = .idle ∨ s.pstate = .halted
  exec : s.exec = true
  response : s.response = none
  faultHalted : s.busFault.isSome = true ↔ s.pstate = .halted
  flagsExact : s.wflags = flagsOf s.warnlog
  idleReleased : s.pstate = .idle → s.rst = 1#1

theorem Inv.accept {s : State} (h : Inv s) (op : Operation) : OpInv (accept op s) where
  fbOk := ⟨h.fbCanonical, h.fbInRange⟩
  lines := ⟨h.csRest, h.rstHeld, h.dcHeld, h.csHeld, h.framed⟩
  restState := h.restState
  exec := rfl
  response := rfl
  faultHalted := h.faultHalted
  flagsExact := h.flagsExact
  idleReleased := h.idleReleased

theorem OpInv.complete {s : State} (h : OpInv s) (logged : Nat) : Inv (complete logged s) := by
  by_cases hp : s.pstate = .halted
  · rw [complete_halted _ _ hp]
    exact ⟨h.fbOk.wf, h.fbOk.inRange, h.restState, by simp [h.exec, hp], h.faultHalted, fun _ => h.response,
      h.lines.csRest, h.flagsExact, h.lines.rstHeld, h.lines.dcHeld, h.lines.csHeld, h.idleReleased, h.lines.framed⟩
  · rw [complete_ok _ _ hp]
    exact ⟨h.fbOk.wf, h.fbOk.inRange, h.restState, by simp [hp], h.faultHalted, fun hq => absurd hq hp,
      h.lines.csRest, h.flagsExact, h.lines.rstHeld, h.lines.dcHeld, h.lines.csHeld, h.idleReleased, h.lines.framed⟩

/-- What only adds to the log and flags what it adds keeps the flags those of the log. -/
theorem LogsGrow.flagsExact {s t : State} (h : LogsGrow s t) (hs : s.wflags = flagsOf s.warnlog) :
    t.wflags = flagsOf t.warnlog := by
  obtain ⟨ws, hlog, hflags⟩ := h.warns
  rw [hflags, hs, hlog, flagsOf, flagsOf, List.foldl_append]

theorem DrawEffect.linesHeld {s t : State} (h : DrawEffect s t) (hs : LinesHeld s) : LinesHeld t where
  csRest := by rw [h.cs, h.pstate, h.logs.cfg, hs.csRest]
  rstHeld := by rw [h.trace, h.rst]; exact hs.rstHeld
  dcHeld := by rw [h.trace, h.dc]; exact hs.dcHeld
  csHeld := by rw [h.trace, h.cs]; exact hs.csHeld
  framed := by rw [h.trace, h.logs.cfg, hs.framed]

theorem OpInv.draw {s t : State} (hs : OpInv s) (h : DrawEffect s t) : OpInv t where
  fbOk := h.fbOk hs.fbOk
  lines := h.linesHeld hs.lines
  restState := by rw [h.pstate]; exact hs.restState
  exec := h.exec.trans hs.exec
  response := h.response.trans hs.response
  faultHalted := by rw [h.busFault, h.pstate]; exact hs.faultHalted
  flagsExact := h.logs.flagsExact hs.flagsExact
  idleReleased := by rw [h.pstate, h.rst]; exact hs.idleReleased

/-- A sequence that ends in Idle with RST released, or in Halted, keeps the invariant inside an operation. -/
theorem OpInv.runActs {s : State} (hs : OpInv s) (live : s.pstate ≠ .halted) {as : List Act}
    (ha : Act.setState .halted ∉ as) (hstate : stateAfter as s.pstate = .idle) (hrst : rstAfter as s.rst = 1#1) :
    OpInv (runActs as s) := by
  have heff := runActs_effect as s ha
  have hend : (Machine.runActs as s).pstate = .halted ∨
      (Machine.runActs as s).pstate = .idle ∧ (Machine.runActs as s).rst = 1#1 := by
    simpa only [EndsAs, hstate, hrst] using runActs_endsAs as s
  refine ⟨?_, hs.lines.runActs ha, hend.elim (.inr ∘ .inr) (.inr ∘ .inl ∘ And.left), heff.exec.trans hs.exec,
    heff.response.trans hs.response, ⟨fun hf => ?_, fun hp => (heff.stop hp live).1⟩,
    heff.logsGrow.flagsExact hs.flagsExact, fun hp => ?_⟩
  · exact ⟨heff.fb ▸ hs.fbOk.wf, by rw [heff.fb, heff.cfg]; exact hs.fbOk.inRange⟩
  · by_contra hp
    rw [heff.run hp] at hf
    exact live (hs.faultHalted.1 hf)
  · rcases hend with hhalt | ⟨-, hr⟩
    · exact absurd (hp.symm.trans hhalt) (by decide)
    · exact hr

/-- A public operation keeps the invariant. -/
theorem ExecEffect.inv {i : Instr} {s t : State} (h : ExecEffect i s t) (hi : isPublic i = true) (hs : Inv s) :
    Inv t := by
  cases h with
  | drawing op u _ _ body ht => exact ht ▸ ((hs.accept op).draw body).complete _
  | panel op as ha ready ht =>
    have hrun := (hs.accept op).runActs ready.1 ha.halted_not_mem (ha.stateAfter _) (ha.rstAfter hs.idleReleased)
    exact ht ▸ hrun.complete _
  | sequence _ hn => exact absurd (hi.symm.trans hn) (by decide)

/-- What is still to come is no part of the invariant. -/
theorem Inv.withPending {s : State} (h : Inv s) (rest : List Input) : Inv { s with pending := rest } :=
  ⟨h.fbCanonical, h.fbInRange, h.restState, h.execHalted, h.faultHalted, h.noResponse, h.csRest, h.flagsExact,
    h.rstHeld, h.dcHeld, h.csHeld, h.idleReleased, h.framed⟩

theorem inv_reset : Inv State.reset where
  fbCanonical := Memory.wf_reset
  fbInRange _ hc := absurd hc List.not_mem_nil
  restState := .inl rfl
  execHalted := by decide
  faultHalted := by decide
  noResponse _ := rfl
  csRest := rfl
  flagsExact := rfl
  rstHeld _ hv := nomatch hv
  dcHeld _ hv := nomatch hv
  csHeld _ hv := nomatch hv
  idleReleased hp := nomatch hp
  framed := rfl

/-- Core reset leads to the invariant from every state: but for the lines and the parameters it is the reset state. -/
theorem inv_coreReset (s : State) : Inv (coreReset s) :=
  { inv_reset with
    fbInRange := fun _ hc => absurd hc List.not_mem_nil
    csRest := rfl
    rstHeld := fun _ hv => nomatch hv
    dcHeld := fun _ hv => nomatch hv
    csHeld := fun _ hv => nomatch hv
    idleReleased := fun hp => nomatch hp
    framed := rfl }

theorem isPublic_of_decodeDrawText {cfg : Config} {d : Descriptor} {text : List Byte} {glyphs : Option GlyphSource}
    {i : Instr} (h : decodeDrawText cfg d text glyphs = .ok i) : isPublic i = true := by
  simp only [decodeDrawText] at h
  split at h
  · cases h; rfl
  · cases glyphs with
    | none => cases h
    | some gs =>
      simp only at h
      split at h
      · cases h
      · cases h; rfl

/-- A host's request is read as a public operation or rejected (30_encoding.md R84). -/
theorem isPublic_of_decode_request {cfg : Config} {d : Descriptor} {text : List Byte} {glyphs : Option GlyphSource}
    {i : Instr} (h : decode cfg (.request d text glyphs) = .ok i) : isPublic i = true := by
  simp only [decode, decodeRequest] at h
  split at h
  · cases h
  · split at h
    case h_4 => exact isPublic_of_decodeDrawText h
    all_goals cases h
    all_goals rfl

end Sys2Proof.Machine
end

section
/-! CERTIFICATE. The statements of 10_state.md: O10, O17, O24, O48, O49, O51. -/

namespace Sys2Proof.Machine

/-- Settles O49: between operations EXEC is 1 in Halted alone, so a step that answers takes a core reset, nothing, or a
host's request, and each public operation goes from `Inv` through `OpInv` back to `Inv`. -/
theorem stepPreservesInvariant : Obligations.StepPreservesInvariant := by
  intro s t hs h
  rcases step_cases h with ⟨-, rfl⟩ | ⟨u, -, rfl⟩ | ⟨w, u, i, hf, hd, hx⟩
  · exact hs
  · exact inv_coreReset u
  · have heff := exec_effect hx
    rcases fetch_cases s with ⟨-, -, hf'⟩ | ⟨rest, -, hf'⟩ | ⟨d, text, glyphs, rest, -, hf'⟩ |
      ⟨symbols, rest, -, hexec, -, hf'⟩
    · cases hf.symm.trans hf'
    · cases hf.symm.trans hf'
    · cases hf.symm.trans hf'
      exact heff.inv (isPublic_of_decode_request hd) (hs.withPending rest)
    · cases hf.symm.trans hf'
      exact absurd (hs.execHalted.1 hexec) heff.live

/-- Settles O24: only a drawing operation's body writes FB. -/
theorem onlyDrawingWritesFramebuffer : Obligations.OnlyDrawingWritesFramebuffer := by
  intro i s t h
  have heff := exec_effect h
  rcases heff.fb with (hi | hi | hi | hi) | hfb
  · exact .inl hi
  · exact .inr (.inl hi)
  · exact .inr (.inr (.inl hi))
  · exact .inr (.inr (.inr (.inl hi)))
  · exact .inr (.inr (.inr (.inr ⟨hfb, heff.logsGrow.epoch⟩)))

/-- Settles O51: acceptance, every body and completion only add to the logs, and a flag once set stays set. -/
theorem logsOnlyGrow : Obligations.LogsOnlyGrow := by
  intro i s t h
  obtain ⟨hcfg, hepoch, hpending, hframes, htrace, ws, hlog, hflags⟩ := (exec_effect h).logsGrow
  obtain ⟨hbusy, hskip, hnone⟩ := WFlags.foldl_set_sticky ws s.wflags
  rw [← hflags] at hbusy hskip hnone
  exact ⟨htrace, ⟨ws, hlog.symm⟩, hbusy, hskip, hnone, hcfg, hpending, hframes, hepoch⟩

/-- Settles O10: each is a field of the reset state, and with no byte of FB listed every read is a free value. -/
theorem resetValues : Obligations.ResetValues :=
  ⟨rfl, rfl, rfl, rfl, rfl, rfl, fun _ => rfl, rfl, rfl, rfl⟩

/-- Settles O17: the request is admitted, and the glyph table's check is the next to refuse it. -/
theorem shortGlyphTableRefused : Obligations.ShortGlyphTableRefused := by
  intro s x y text gs color hp he hshort
  have hadm : s.admission = none := by simp [State.admission, hp, he]
  have hcheck : glyphTableCheck (some gs) = some .glyphTableTooShort := if_pos hshort
  rw [exec, execDrawText, request, hadm, hcheck]
  rfl

/-- Settles O48: nothing is written, driven, logged or recorded after reset. -/
theorem resetKeepsInvariant : Obligations.ResetKeepsInvariant := inv_reset

end Sys2Proof.Machine
end

section
/-! SUPPORT. The pixel of each framebuffer bit (20_memory.md R42), and that a pixel write repeated changes nothing
(R45). -/

namespace Sys2Proof.Machine

/-- The pixel of bit `b` of byte `i` lies in RAM. -/
theorem pixelOfBit_inRam {cfg : Config} (h : cfg.wf = true) {i b : Nat} (hi : i < cfg.fbSize) :
    8 * (i % cfg.rowStride) + (7 - b) < cfg.ramWidth ∧ i / cfg.rowStride < cfg.ramHeight := by
  have hbounds := Config.wf_bounds h
  have hwidth := Config.ramWidth_eq h
  have hcol : i % cfg.rowStride < cfg.rowStride := Nat.mod_lt _ (by omega)
  exact ⟨by omega, Nat.div_lt_of_lt_mul hi⟩

/-- The byte of the pixel of bit `b` of byte `i` is `i`. -/
theorem byteIndex_pixelOfBit (cfg : Config) (i b : Nat) :
    byteIndex cfg (8 * (i % cfg.rowStride) + (7 - b)) (i / cfg.rowStride) = i := by
  have hcol : (8 * (i % cfg.rowStride) + (7 - b)) / 8 = i % cfg.rowStride := by omega
  rw [byteIndex, hcol, Nat.div_add_mod']

theorem bitNumber_lt (x : Nat) : bitNumber x < 8 := by unfold bitNumber; omega

/-- Column `c` of a row of bytes starts at a multiple of 8, which the bit number does not see. -/
theorem bitNumber_pixelOfBit (c : Nat) {b : Nat} (hb : b < 8) : bitNumber (8 * c + (7 - b)) = b := by
  unfold bitNumber; omega

/-- A pixel is its byte's column and its bit number put together. -/
theorem pixelOfBit_byteIndex {cfg : Config} (h : cfg.wf = true) {x : Nat} (y : Nat) (hx : x < cfg.ramWidth) :
    8 * (byteIndex cfg x y % cfg.rowStride) + (7 - bitNumber x) = x := by
  rw [byteIndex_mod h y hx]
  unfold bitNumber; omega

/-- Writing the same byte of FB twice is writing it once. -/
theorem writeFb_writeFb_same (s : State) (a : Nat) (v : Byte) : writeFb a v (writeFb a v s) = writeFb a v s := by
  simp [writeFb, Memory.write_write_same]

/-- A pixel write repeated finds the bit set as it would set it, so it writes the same byte again. -/
theorem pixelWrite_pixelWrite_same (s : State) (x y : Nat) (v : Bool) :
    pixelWrite x y v (pixelWrite x y v s) = pixelWrite x y v s := by
  have hcfg : (pixelWrite x y v s).cfg = s.cfg := rfl
  rw [pixelWrite, hcfg, readFb_pixelWrite_same]
  cases v
  · simp only [Bool.false_eq_true, if_false, BitVec.and_assoc, BitVec.and_self]
    exact writeFb_writeFb_same _ _ _
  · simp only [if_true, BitVec.or_assoc, BitVec.or_self]
    exact writeFb_writeFb_same _ _ _

end Sys2Proof.Machine
end

section
/-! CERTIFICATE. The statements of 20_memory.md: O19, O20. -/

namespace Sys2Proof.Machine

/-- Settles O19: row, column and bit number of a pixel determine it and are determined by it, and a row of `ROW_STRIDE`
bytes has `RAM_WIDTH` bits. -/
theorem pixelToBitBijection : Obligations.PixelToBitBijection := by
  intro cfg h
  refine ⟨fun x y hx hy => ?_, fun i b hi hb => ?_, ?_⟩
  · exact ⟨byteIndex_lt cfg hx hy, bitNumber_lt x, byteIndex_div h y hx, pixelOfBit_byteIndex h y hx⟩
  · obtain ⟨hx, hy⟩ := pixelOfBit_inRam h (b := b) hi
    exact ⟨hx, hy, byteIndex_pixelOfBit cfg i b, bitNumber_pixelOfBit _ hb⟩
  · rw [Config.ramWidth_eq h, Config.fbSize, Nat.mul_assoc]

/-- Settles O20: one byte is written, and in it one bit, which is the pixel's alone. -/
theorem pixelWriteChangesOneBit : Obligations.PixelWriteChangesOneBit := by
  intro s x y v h hx _ t
  refine ⟨pixel_pixelWrite_same s x y v, fun x' y' hx' _ hne => ?_, fun a ha => ?_, ?_, rfl⟩
  · exact pixel_pixelWrite_other s v h hx hx' hne
  · exact readFb_pixelWrite_other s x y v ha
  · exact pixelWrite_pixelWrite_same s x y v

end Sys2Proof.Machine
end

section
/-! SUPPORT. The decoder's cases (30_encoding.md R60, R76 to R81): what each selector and each frame is read as, and
that the encoder's words are read back. -/

namespace Sys2Proof

/-! ### Requests -/

theorem Descriptor.arg8_toNat (d : Descriptor) : d.arg8.toNat = d.toNat / 2 ^ 48 % 256 := by
  simp only [Descriptor.arg8, BitVec.extractLsb'_toNat, Nat.shiftRight_eq_div_pow, Nat.reducePow]

section Selectors

variable (cfg : Config) {d : Descriptor} (hr : d.reserved = 0#3) (text : List Byte) (glyphs : Option GlyphSource)

include hr

theorem decode_request_initPanel (ho : d.op = 0#4) : decode cfg (.request d text glyphs) = .ok .initPanel := by
  simp [decode, decodeRequest, hr, ho]

theorem decode_request_clear (ho : d.op = 1#4) : decode cfg (.request d text glyphs) = .ok (.clear d.arg8) := by
  simp [decode, decodeRequest, hr, ho]

theorem decode_request_display (ho : d.op = 2#4) : decode cfg (.request d text glyphs) = .ok .display := by
  simp [decode, decodeRequest, hr, ho]

theorem decode_request_fillPattern (ho : d.op = 4#4) : decode cfg (.request d text glyphs) = .ok .fillPattern := by
  simp [decode, decodeRequest, hr, ho]

theorem decode_request_fillCheckerboard (ho : d.op = 5#4) :
    decode cfg (.request d text glyphs) = .ok .fillCheckerboard := by
  simp [decode, decodeRequest, hr, ho]

theorem decode_request_reservedSelector (ho : 6 ≤ d.op.toNat) :
    decode cfg (.request d text glyphs) = .error .reservedSelector := by
  obtain ⟨n, hn⟩ := Nat.exists_eq_add_of_le' ho
  simp [decode, decodeRequest, hr, hn]

end Selectors

theorem decode_request_reservedBits (cfg : Config) {d : Descriptor} (hr : d.reserved ≠ 0#3) (text : List Byte)
    (glyphs : Option GlyphSource) : decode cfg (.request d text glyphs) = .error .reservedBits := by
  simp [decode, decodeRequest, hr]

/-- With `g = 0` no operand space is checked (43_rasterizer.md R154). -/
theorem decodeDrawText_noGlyphSource (cfg : Config) {d : Descriptor} (hg : d.g = 0#1) (text : List Byte)
    (glyphs : Option GlyphSource) :
    decodeDrawText cfg d text glyphs =
      .ok (.drawText (cfg.coord d.x) (cfg.coord d.y) (text.take (cfg.textLen d.len)) none d.arg8) := by
  simp [decodeDrawText, hg]

/-- A DRAWTEXT whose operands fit is read back from its words. -/
theorem decode_encode_drawText {cfg : Config} {x y : Int} {text : List Byte} (glyphs : Option GlyphSource)
    (color : Byte) (hx : cfg.coordFits x = true) (hy : cfg.coordFits y = true) (hl : cfg.lenFits text.length = true) :
    decode cfg (encode cfg (.drawText x y text glyphs color)) = .ok (.drawText x y text glyphs color) := by
  have hlen := Config.textLen_ofNat hl
  rw [encode, decode_request_drawText cfg (Descriptor.reserved_mk ..) (by simp)]
  cases glyphs with
  | none =>
    rw [decodeDrawText_noGlyphSource cfg (by simp)]
    simp [Config.coord_ofInt hx, Config.coord_ofInt hy, hlen]
  | some gs =>
    rw [decodeDrawText_ok cfg _ gs (by simp [hlen])]
    simp [Config.coord_ofInt hx, Config.coord_ofInt hy, hlen]

/-! ### Frames -/

theorem decode_frame_command (cfg : Config) {s : Symbol} (h : s.dc = 0#1) :
    decode cfg (.frame [s]) = .ok (decodeCommand cfg s.byte) := by
  simp [decode, decodeFrame, h]

theorem decode_frame_data (cfg : Config) {s : Symbol} (h : s.dc = 1#1) :
    decode cfg (.frame [s]) = .ok (.sendData s.byte) := by
  simp [decode, decodeFrame, h]

/-- Two or more symbols are a block or nothing. -/
theorem decode_frame_long (cfg : Config) {symbols : List Symbol} (h : 2 ≤ symbols.length) :
    decode cfg (.frame symbols) =
      if symbols.all (fun s => s.dc == 1#1) then
        if cfg.fbSize < symbols.length then .error .frameTooLong else .ok (.sendDataBlock (symbols.map Symbol.byte))
      else .error .mixedFrame := by
  match symbols, h with
  | _ :: _ :: _, _ => rfl

theorem decode_frame_block (cfg : Config) {symbols : List Symbol} (h2 : 2 ≤ symbols.length)
    (hlen : symbols.length ≤ cfg.fbSize) (hdc : ∀ s ∈ symbols, s.dc = 1#1) :
    decode cfg (.frame symbols) = .ok (.sendDataBlock (symbols.map Symbol.byte)) := by
  have hall : symbols.all (fun s => s.dc == 1#1) = true := by simpa using hdc
  rw [decode_frame_long cfg h2, if_pos hall, if_neg (Nat.not_lt.2 hlen)]

/-- A frame that is an instruction is a CMD symbol, a DAT symbol, or two or more data symbols (30_encoding.md R60). -/
theorem decode_frame_cases {cfg : Config} {symbols : List Symbol} {i : Instr}
    (h : decode cfg (.frame symbols) = .ok i) :
    (∃ s, symbols = [s] ∧ s.dc = 0#1 ∧ i = decodeCommand cfg s.byte) ∨
    (∃ s, symbols = [s] ∧ s.dc = 1#1 ∧ i = .sendData s.byte) ∨
    (2 ≤ symbols.length ∧ symbols.length ≤ cfg.fbSize ∧ (∀ s ∈ symbols, s.dc = 1#1) ∧
      i = .sendDataBlock (symbols.map Symbol.byte)) := by
  match symbols with
  | [] => cases h
  | [s] =>
    rcases Machine.level_cases s.dc with hdc | hdc
    · rw [decode_frame_command cfg hdc] at h
      cases h
      exact .inl ⟨s, rfl, hdc, rfl⟩
    · rw [decode_frame_data cfg hdc] at h
      cases h
      exact .inr (.inl ⟨s, rfl, hdc, rfl⟩)
  | s :: s' :: rest =>
    have h2 : 2 ≤ (s :: s' :: rest).length := by simp
    rw [decode_frame_long cfg h2] at h
    split at h
    next hall =>
      split at h
      · cases h
      next hlen =>
        cases h
        exact .inr (.inr ⟨h2, Nat.not_lt.1 hlen, by simpa using hall, rfl⟩)
    · cases h

/-- The instruction of a CMD symbol is encoded as that symbol. -/
theorem encode_decodeCommand (cfg : Config) (c : Byte) :
    encode cfg (decodeCommand cfg c) = .frame [Symbol.mk 0#1 c] := by
  unfold decodeCommand
  split
  next k hk => rw [PanelCommand.encode_instr, Config.code_of_commandOf hk]
  next => rfl

theorem decodeCommand_of_some {cfg : Config} {c : Byte} {k : PanelCommand} (h : cfg.commandOf c = some k) :
    decodeCommand cfg c = k.instr := by
  rw [decodeCommand, h]

theorem decodeCommand_of_none {cfg : Config} {c : Byte} (h : cfg.commandOf c = none) :
    decodeCommand cfg c = .sendCommand c := by
  rw [decodeCommand, h]

/-! ### Instructions -/

/-- An instruction that no host can request is a Transport sequence or a panel command (30_encoding.md R84). -/
theorem internal_instr_cases {i : Instr} (hi : Machine.isPublic i = false) :
    (∃ c, i = .sendCommand c) ∨ (∃ d, i = .sendData d) ∨ (∃ bytes, i = .sendDataBlock bytes) ∨
      ∃ k : PanelCommand, i = k.instr := by
  have panel : ∀ k : PanelCommand, (∃ c, k.instr = .sendCommand c) ∨ (∃ d, k.instr = .sendData d) ∨
      (∃ bytes, k.instr = .sendDataBlock bytes) ∨ ∃ k' : PanelCommand, k.instr = k'.instr :=
    fun k => .inr (.inr (.inr ⟨k, rfl⟩))
  cases i with
  | initPanel | clear | display | drawText | fillPattern | fillCheckerboard => cases hi
  | sendCommand c => exact .inl ⟨c, rfl⟩
  | sendData d => exact .inr (.inl ⟨d, rfl⟩)
  | sendDataBlock bytes => exact .inr (.inr (.inl ⟨bytes, rfl⟩))
  | cmdSwReset => exact panel .swReset
  | cmdDriverOutputControl => exact panel .driverOutputControl
  | cmdDataEntryMode => exact panel .dataEntryMode
  | cmdSetRamXWindow => exact panel .setRamXWindow
  | cmdSetRamYWindow => exact panel .setRamYWindow
  | cmdBorderWaveform => exact panel .borderWaveform
  | cmdTempSensor => exact panel .tempSensor
  | cmdDisplayUpdateControl1 => exact panel .displayUpdateControl1
  | cmdSetRamXCounter => exact panel .setRamXCounter
  | cmdSetRamYCounter => exact panel .setRamYCounter
  | cmdWriteRamBw => exact panel .writeRamBw
  | cmdDisplayUpdateControl2 => exact panel .displayUpdateControl2
  | cmdMasterActivation => exact panel .masterActivation

/-- A well-formed host operation is read back from its descriptor. -/
theorem decode_encode_public {cfg : Config} {i : Instr} (hi : Machine.isPublic i = true) (h : i.wf cfg = true) :
    decode cfg (encode cfg i) = .ok i := by
  cases i with
  | initPanel => exact decode_request_initPanel cfg (Descriptor.reserved_mk ..) [] none (Descriptor.op_mk ..)
  | clear fill =>
    have hread := decode_request_clear cfg (Descriptor.reserved_mk ..) [] none (Descriptor.op_mk 1 0 fill 0 0 0)
    rwa [Descriptor.arg8_mk] at hread
  | display => exact decode_request_display cfg (Descriptor.reserved_mk ..) [] none (Descriptor.op_mk ..)
  | drawText x y text glyphs color =>
    simp only [Instr.wf, Bool.and_eq_true] at h
    obtain ⟨⟨hx, hy⟩, hl⟩ := h
    exact decode_encode_drawText glyphs color hx hy hl
  | fillPattern => exact decode_request_fillPattern cfg (Descriptor.reserved_mk ..) [] none (Descriptor.op_mk ..)
  | fillCheckerboard =>
    exact decode_request_fillCheckerboard cfg (Descriptor.reserved_mk ..) [] none (Descriptor.op_mk ..)
  | _ => cases hi

/-- A well-formed internal sequence is read back from its frame. -/
theorem decode_encode_internal {cfg : Config} {i : Instr} (hi : Machine.isPublic i = false) (h : i.wf cfg = true) :
    decode cfg (encode cfg i) = .ok i := by
  rcases internal_instr_cases hi with ⟨c, rfl⟩ | ⟨d, rfl⟩ | ⟨bytes, rfl⟩ | ⟨k, rfl⟩
  · have hc : cfg.commandOf c = none := by simpa [Instr.wf] using h
    rw [encode, decode_frame_command cfg (Symbol.dc_mk ..), Symbol.byte_mk, decodeCommand_of_none hc]
  · rw [encode, decode_frame_data cfg (Symbol.dc_mk ..), Symbol.byte_mk]
  · simp only [Instr.wf, Bool.and_eq_true, decide_eq_true_eq] at h
    obtain ⟨h2, hlen⟩ := h
    rw [encode, decode_frame_block cfg (by simpa using h2) (by simpa using hlen) (by simp)]
    simp [Function.comp_def]
  · have hk : cfg.commandOf (cfg.code k) = some k := by simpa [PanelCommand.wf] using h
    rw [PanelCommand.encode_instr, decode_frame_command cfg (Symbol.dc_mk ..), Symbol.byte_mk, decodeCommand_of_some hk]

end Sys2Proof
end

section
/-! SUPPORT. Transport calls that the link layer lets through, one after another, and the panel commands made of them
(30_encoding.md R61, R68, R70). -/

namespace Sys2Proof.Machine

/-! ### Parameters -/

theorem lo8_toNat (v : Nat) : (lo8 v).toNat = v % 256 := by
  simp [lo8]

theorem hi8_toNat {v : Nat} (h : v < 65536) : (hi8 v).toNat = v / 256 := by
  simp only [hi8, BitVec.toNat_ofNat]
  omega

theorem panelActs_of_ne (cfg : Config) {k : PanelCommand} (hk : k ≠ .writeRamBw) :
    panelActs cfg k = .sendCommand (cfg.code k) :: (panelParams cfg k).map .sendData := by
  rw [panelActs, if_neg hk]

theorem panelActs_writeRamBw (cfg : Config) :
    panelActs cfg .writeRamBw = [.sendCommand cfg.cmd.writeRamBw, .sendFramebuffer] := rfl

/-! ### Calls let through -/

/-- The state after `n` Transport calls with the events `es`, the last of them with the select line at `level`. -/
def State.called (s : State) (level : Level) (es : List Event) (n : Nat) : State :=
  { s with dc := level, cs := s.cfg.csIdleLevel, traceRev := es.reverse ++ s.traceRev, env := s.env.takeLinks n,
           ctx := { s.ctx with calls := s.ctx.calls + n } }

@[simp] theorem called_cfg (s : State) (v : Level) (es : List Event) (n : Nat) : (s.called v es n).cfg = s.cfg := rfl

@[simp] theorem called_pstate (s : State) (v : Level) (es : List Event) (n : Nat) :
    (s.called v es n).pstate = s.pstate := rfl

@[simp] theorem called_trace (s : State) (v : Level) (es : List Event) (n : Nat) :
    (s.called v es n).trace = s.trace ++ es := by
  simp [State.trace, State.called]

@[simp] theorem called_called (s : State) (v w : Level) (es fs : List Event) (m n : Nat) :
    (s.called v es m).called w fs n = s.called w (es ++ fs) (m + n) := by
  simp [State.called, Nat.add_assoc]

theorem linkClear_called {s : State} {m n : Nat} (h : s.linkClear (m + n)) (v : Level) (es : List Event) :
    (s.called v es m).linkClear n := linkClear_takeLinks rfl h

/-- A call that is let through makes its four events. -/
theorem transport_called (call : TransportCall) (level : Level) (bytes : List Byte) {s : State}
    (live : s.pstate ≠ .halted) (h : s.linkAnswer 0 = 0#1) :
    transport call level bytes s = s.called level (callEvents s.cfg level bytes) 1 :=
  transport_ok call level bytes s live h

theorem sendDataBlock_called (bytes : List Byte) {s : State} (live : s.pstate ≠ .halted) (h : s.linkAnswer 0 = 0#1) :
    sendDataBlock bytes s = setStreamIdx bytes.length (s.called 1#1 (callEvents s.cfg 1#1 bytes) 1) :=
  sendDataBlock_ok bytes s live h

/-- Data bytes that are let through make one DAT frame each. -/
theorem runActs_sendData (bytes : List Byte) {s : State} (v : Level) (es : List Event) (m : Nat)
    (live : s.pstate ≠ .halted) (h : s.linkClear (m + bytes.length)) :
    runActs (bytes.map .sendData) (s.called v es m) =
      s.called (if bytes = [] then v else 1#1) (es ++ bytes.flatMap fun b => callEvents s.cfg 1#1 [b])
        (m + bytes.length) := by
  induction bytes generalizing v es m with
  | nil => simp
  | cons b bytes ih =>
    have hlive : (s.called v es m).pstate ≠ .halted := live
    have hfree : (s.called v es m).linkAnswer 0 = 0#1 := linkClear_called h v es 0 (by simp)
    have hrest : s.linkClear (m + 1 + bytes.length) := by rwa [Nat.add_right_comm]
    rw [List.map_cons, runActs_cons _ _ _ hlive, runAct, sendData, transport_called _ _ _ hlive hfree, called_called,
      called_cfg, ih _ _ _ hrest]
    simp [Nat.add_assoc, Nat.add_comm 1]

/-- A panel command that is let through makes its CMD frame and a DAT frame for each parameter. -/
theorem runActs_panelActs {k : PanelCommand} (hk : k ≠ .writeRamBw) {s : State} (live : s.pstate ≠ .halted)
    (h : s.linkClear (panelCalls s.cfg k)) :
    runActs (panelActs s.cfg k) s =
      s.called (if panelParams s.cfg k = [] then 0#1 else 1#1)
        (callEvents s.cfg 0#1 [s.cfg.code k] ++ (panelParams s.cfg k).flatMap fun p => callEvents s.cfg 1#1 [p])
        (panelCalls s.cfg k) := by
  have h0 : s.linkAnswer 0 = 0#1 := h 0 (by simp [panelCalls])
  rw [panelActs_of_ne _ hk, runActs_cons _ _ _ live, runAct, sendCommand, transport_called _ _ _ live h0,
    runActs_sendData _ _ _ _ live h, panelCalls]

/-- The RAM write that is let through makes its CMD frame and the streamed framebuffer as one BLK frame. -/
theorem runActs_writeRamBw {s : State} (live : s.pstate ≠ .halted) (h : s.linkClear 2) :
    runActs (panelActs s.cfg .writeRamBw) s =
      setStreamIdx s.fbBytes.length
        (s.called 1#1 (callEvents s.cfg 0#1 [s.cfg.cmd.writeRamBw] ++ callEvents s.cfg 1#1 s.fbBytes) 2) := by
  have h0 : s.linkAnswer 0 = 0#1 := h 0 (by decide)
  have hlive : (s.called 0#1 (callEvents s.cfg 0#1 [s.cfg.cmd.writeRamBw]) 1).pstate ≠ .halted := live
  have h1 := linkClear_called (m := 1) h 0#1 (callEvents s.cfg 0#1 [s.cfg.cmd.writeRamBw]) 0 Nat.one_pos
  rw [panelActs_writeRamBw, runActs_cons _ _ _ live, runAct, sendCommand, transport_called _ _ _ live h0,
    runActs_cons _ _ _ hlive, runActs_nil, runAct, sendDataBlock_called _ hlive h1, called_called]
  rfl

end Sys2Proof.Machine
end

section
/-! SUPPORT. What a step that performs a host's request does, said once, and what it sends (30_encoding.md R71, R82,
R84). -/

namespace Sys2Proof.Machine

/-! ### Steps -/

theorem step_nothing {s : State} (h : fetch s = .nothing) : step s = .next s := by
  rw [step, h]

theorem step_reset {s u : State} (h : fetch s = .reset u) : step s = .next (coreReset u) := by
  rw [step, h]

/-- A request's step that answers a state performs a public operation. -/
theorem step_request {s t : State} {d : Descriptor} {text : List Byte} {glyphs : Option GlyphSource}
    {rest : List Input} (hp : s.pending = .request d text glyphs :: rest) (h : step s = .next t) :
    ∃ i, isPublic i = true ∧ exec i { s with pending := rest } = .next t := by
  rcases step_cases h with ⟨hf, -⟩ | ⟨u, hf, -⟩ | ⟨w, u, i, hf, hd, hx⟩
  · cases hf.symm.trans (fetch_request hp)
  · cases hf.symm.trans (fetch_request hp)
  · cases hf.symm.trans (fetch_request hp)
    exact ⟨i, isPublic_of_decode_request hd, hx⟩

/-- A public operation runs a body between acceptance and completion, which only adds to the logs and gives no
response. -/
theorem ExecEffect.body {i : Instr} {s t : State} (h : ExecEffect i s t) (hi : isPublic i = true) :
    ∃ u, t = complete s.warnlog.length u ∧ u.response = none ∧ ∃ ws, u.warnlog = s.warnlog ++ ws := by
  cases h with
  | drawing op u _ _ body ht =>
    obtain ⟨ws, hlog, -⟩ := body.logs.warns
    exact ⟨u, ht, body.response, ws, hlog⟩
  | panel op as ha _ ht =>
    have hrun := runActs_effect as (accept op s) ha.halted_not_mem
    obtain ⟨ws, hlog, -⟩ := hrun.warns
    exact ⟨_, ht, hrun.response, ws, hlog⟩
  | sequence _ hn => exact absurd (hi.symm.trans hn) (by decide)

@[simp] theorem complete_trace (logged : Nat) (s : State) : (complete logged s).trace = s.trace := by
  unfold complete
  split <;> rfl

/-! ### Command bytes -/

theorem commandBytes_append (v : Option Level) (a b : List Event) :
    commandBytes v (a ++ b) = commandBytes v a ++ commandBytes ((lastDc a).or v) b := by
  induction a generalizing v with
  | nil => rfl
  | cons e a ih =>
    cases e with
    | dc w => simp [commandBytes, lastDc, ih]
    | xfer bytes =>
      simp only [List.cons_append, commandBytes, lastDc, ih]
      split <;> simp
    | rst | cs | delay | busy => simp [commandBytes, lastDc, ih]

/-- A wait sends no byte. -/
theorem commandBytes_wait {es : List Event} (h : es.all Event.isWait = true) (v : Option Level) :
    commandBytes v es = [] := by
  induction es with
  | nil => rfl
  | cons e es ih =>
    obtain ⟨he, hes⟩ : e.isWait = true ∧ es.all Event.isWait = true := by simpa using h
    cases e with
    | busy | delay => exact ih hes
    | rst | dc | cs | xfer => cases he

/-- From `s` to `t` the bytes sent with the select line low are command bytes, at whatever level that line was. -/
def SendsCommands (cfg : Config) (s t : State) : Prop :=
  ∃ es, t.trace = s.trace ++ es ∧ ∀ v, ∀ c ∈ commandBytes v es, ∃ k : PanelCommand, c = cfg.code k

theorem SendsCommands.of_trace_eq {s t : State} (cfg : Config) (h : t.trace = s.trace) : SendsCommands cfg s t :=
  ⟨[], by simp [h], fun _ _ hc => absurd hc List.not_mem_nil⟩

theorem SendsCommands.trans {cfg : Config} {s t u : State} (h : SendsCommands cfg s t) (h' : SendsCommands cfg t u) :
    SendsCommands cfg s u := by
  obtain ⟨es, htrace, hes⟩ := h
  obtain ⟨fs, htrace', hfs⟩ := h'
  refine ⟨es ++ fs, by rw [htrace', htrace, List.append_assoc], fun v c hc => ?_⟩
  rw [commandBytes_append] at hc
  exact (List.mem_append.1 hc).elim (hes v c) (hfs _ c)

/-- A call with the select line high sends no command byte, and one with the select line low sends its bytes. -/
theorem transport_sendsCommands {cfg : Config} (call : TransportCall) (level : Level) (bytes : List Byte) {s : State}
    (live : s.pstate ≠ .halted) (h : level = 0#1 → ∀ c ∈ bytes, ∃ k : PanelCommand, c = cfg.code k) :
    SendsCommands cfg s (transport call level bytes s) := by
  rcases level_cases (s.linkAnswer 0) with hl | hl
  · rw [transport_called _ _ _ live hl]
    refine ⟨_, called_trace .., fun v c hc => ?_⟩
    by_cases hv : level = 0#1
    · exact h hv c (by simpa [callEvents, commandBytes, hv] using hc)
    · simp [callEvents, commandBytes, hv] at hc
  · rw [transport_fault _ _ _ _ hl]
    exact ⟨[.dc level, .cs s.cfg.csActiveLevel], by simp [State.trace], fun v c hc => by simp [commandBytes] at hc⟩

theorem sendDataBlock_sendsCommands (cfg : Config) (bytes : List Byte) {s : State} (live : s.pstate ≠ .halted) :
    SendsCommands cfg s (sendDataBlock bytes s) := by
  have hcall : SendsCommands cfg s (transport .sendDataBlock 1#1 bytes (setStreamIdx 0 s)) :=
    transport_sendsCommands .sendDataBlock 1#1 bytes (s := setStreamIdx 0 s) live fun h => absurd h (by decide)
  rw [sendDataBlock]
  split <;> exact hcall

/-- The command byte of a SENDCOMMAND among the statements is one of the thirteen. -/
def CommandsListed (cfg : Config) (as : List Act) : Prop :=
  ∀ c, .sendCommand c ∈ as → ∃ k : PanelCommand, c = cfg.code k

theorem runAct_sendsCommands {cfg : Config} (a : Act) {s : State} (live : s.pstate ≠ .halted)
    (ha : CommandsListed cfg [a]) : SendsCommands cfg s (runAct a s) := by
  cases a with
  | setState p => exact .of_trace_eq cfg rfl
  | hwReset =>
    rw [runAct, hwReset_eq]
    exact ⟨[.rst 1#1, .delay s.cfg.tResetSettleMs, .rst 0#1, .delay s.cfg.tResetLowMs, .rst 1#1,
      .delay s.cfg.tResetReleaseMs], by simp [State.trace], fun v c hc => by simp [commandBytes] at hc⟩
  | waitBusy site =>
    obtain ⟨-, ⟨es, htrace, hwait, -⟩, -⟩ := waitBusy_effect site s
    exact ⟨es, htrace, fun v c hc => by simp [commandBytes_wait hwait] at hc⟩
  | sendCommand c => exact transport_sendsCommands _ _ _ live fun _ => by simpa using ha c
  | sendData d => exact transport_sendsCommands _ _ _ live fun h => absurd h (by decide)
  | sendDataBlock bytes => exact sendDataBlock_sendsCommands cfg bytes live
  | sendFramebuffer => exact sendDataBlock_sendsCommands cfg s.fbBytes live

theorem runActs_sendsCommands {cfg : Config} {as : List Act} (ha : CommandsListed cfg as) (s : State) :
    SendsCommands cfg s (runActs as s) := by
  induction as generalizing s with
  | nil => exact .of_trace_eq cfg rfl
  | cons a as ih =>
    by_cases hp : s.pstate = .halted
    · rw [runActs_halted _ _ hp]; exact .of_trace_eq cfg rfl
    · rw [runActs_cons _ _ _ hp]
      have hfirst := runAct_sendsCommands a hp fun c hc => ha c (List.mem_singleton.1 hc ▸ List.mem_cons_self)
      exact hfirst.trans (ih (fun c hc => ha c (List.mem_cons_of_mem _ hc)) _)

theorem CommandsListed.append {cfg : Config} {as bs : List Act} (ha : CommandsListed cfg as)
    (hb : CommandsListed cfg bs) : CommandsListed cfg (as ++ bs) :=
  fun c hc => (List.mem_append.1 hc).elim (ha c) (hb c)

theorem commandsListed_panelActs (cfg : Config) (k : PanelCommand) : CommandsListed cfg (panelActs cfg k) := by
  intro c hc
  refine ⟨k, ?_⟩
  unfold panelActs at hc
  split at hc <;> simpa using hc

theorem commandsListed_panelSeq (cfg : Config) (ks : List PanelCommand) : CommandsListed cfg (panelSeq cfg ks) := by
  intro c hc
  obtain ⟨k, -, hk⟩ := List.mem_flatMap.1 hc
  exact commandsListed_panelActs cfg k c hk

/-- INITIALIZE and DISPLAY send panel commands alone. -/
theorem PanelOperation.commandsListed {s : State} {i : Instr} {as : List Act} (h : PanelOperation s i as) :
    CommandsListed s.cfg as := by
  have other {as : List Act} (h : ∀ c, .sendCommand c ∉ as) : CommandsListed s.cfg as := fun c hc => absurd hc (h c)
  cases h with
  | initPanel _ =>
    exact ((((other (by simp)).append (commandsListed_panelActs _ _)).append (other (by simp))).append
      (commandsListed_panelSeq _ _)).append (other (by simp))
  | display _ =>
    exact ((other (by simp)).append (commandsListed_panelSeq _ _)).append (other (by simp))

/-- A public operation sends nothing, or the commands of its sequence. -/
theorem ExecEffect.sendsCommands {i : Instr} {s t : State} (h : ExecEffect i s t) (hi : isPublic i = true) :
    SendsCommands s.cfg s t := by
  cases h with
  | drawing op u _ _ body ht => exact .of_trace_eq s.cfg (by rw [ht, complete_trace, body.trace, accept_trace])
  | panel op as ha _ ht =>
    have hrun : SendsCommands s.cfg s (runActs as (accept op s)) :=
      runActs_sendsCommands ha.commandsListed (accept op s)
    exact hrun.trans (.of_trace_eq s.cfg (by rw [ht, complete_trace]))
  | sequence _ hn => exact absurd (hi.symm.trans hn) (by decide)

end Sys2Proof.Machine
end

section
/-! CERTIFICATE. The statements of 30_encoding.md: O1, O2, O5 to O7, O15, O37 to O40, O52, O54, O57. -/

namespace Sys2Proof.Machine

/-- Settles O2: a host operation is read from its descriptor's fields, a sequence from its symbols. -/
theorem decodeEncodeRoundTrip : Obligations.DecodeEncodeRoundTrip := by
  intro cfg i h
  cases hi : isPublic i with
  | true => exact decode_encode_public hi h
  | false => exact decode_encode_internal hi h

/-- Settles O5: a CMD, a DAT and a BLK frame each keep every bit of their symbols. -/
theorem frameEncodesBack : Obligations.FrameEncodesBack := by
  intro cfg symbols i h
  rcases decode_frame_cases h with ⟨s, rfl, hdc, rfl⟩ | ⟨s, rfl, hdc, rfl⟩ | ⟨-, -, hdc, rfl⟩
  · rw [encode_decodeCommand, ← hdc, Symbol.mk_dc_byte]
  · rw [encode, ← hdc, Symbol.mk_dc_byte]
  · have hback : ∀ s ∈ symbols, (Symbol.mk 1#1 ∘ Symbol.byte) s = id s := fun s hs => by
      rw [Function.comp_apply, ← hdc s hs, Symbol.mk_dc_byte, id]
    rw [encode, List.map_map, List.map_congr_left hback, List.map_id]

/-- Settles O6: at the width 16 a field is its operand, read as the descriptor's bits. -/
theorem operandAssembly : Obligations.OperandAssembly := by
  intro cfg d text gs hcoord htext hres hlen
  have hr : d.reserved = 0#3 := BitVec.eq_of_toNat_eq (d.reserved_toNat.trans hres)
  have hl : cfg.textLen d.len = d.toNat % 65536 := by
    rw [Config.textLen, d.len_toNat, htext]; omega
  have hc (f : Field16) : cfg.coord f = if f.toNat < 32768 then (f.toNat : Int) else (f.toNat : Int) - 65536 := by
    rw [Config.coord_eq hcoord.le, hcoord, Nat.mod_eq_of_lt f.isLt]
    dsimp only
    split <;> split <;> omega
  refine ⟨fun hop => ⟨d.arg8, ?_, d.arg8_toNat⟩,
    fun hop => ⟨cfg.coord d.x, cfg.coord d.y, d.arg8, ?_, d.arg8_toNat, ?_, ?_⟩⟩
  · exact decode_request_clear cfg hr text (some gs) (BitVec.eq_of_toNat_eq (d.op_toNat.trans hop))
  · rw [decode_request_drawText cfg hr (d.op_toNat.trans hop), decodeDrawText_ok cfg d gs (hl ▸ hlen), hl]
    simp only [d.g_eq_one_iff]
  · rw [hc, d.x_toNat]; rfl
  · rw [hc, d.y_toNat]; rfl

/-- Settles O39: the command's own call and one for each parameter, each let through. -/
theorem panelCommandsSendParameters : Obligations.PanelCommandsSendParameters := by
  intro s k hk live hwf hclear
  refine ⟨_, (exec_panel k s).trans (internal_ok _ s live hwf), ?_, ?_⟩
  · rw [runActs_panelActs hk live hclear, called_trace, List.append_assoc]
  · rw [runActs_panelActs hk live hclear]
    rfl

/-- Settles O40: two calls let through, and a canonical framebuffer is streamed in address order. -/
theorem writeRamSendsFramebuffer : Obligations.WriteRamSendsFramebuffer := by
  intro s live hwf hfb hclear
  refine ⟨_, (exec_panel .writeRamBw s).trans (internal_ok _ s live hwf), ?_, ?_⟩
  · rw [runActs_writeRamBw live hclear, setStreamIdx_trace, called_trace, fbBytes_eq_payload s hfb, List.append_assoc]
  · rw [runActs_writeRamBw live hclear]
    rfl

/-- Settles O52: completion answers the part of the log that the body added, and does not come after a bus fault. -/
theorem responseCarriesWarnings : Obligations.ResponseCarriesWarnings := by
  intro s t d text glyphs rest hp h
  obtain ⟨i, hi, hx⟩ := step_request hp h
  obtain ⟨u, rfl, hnone, ws, hlog⟩ := (exec_effect hx).body hi
  by_cases hu : u.pstate = .halted
  · rw [complete_halted _ _ hu]
    exact ⟨fun hlive => absurd hu hlive, fun _ => hnone⟩
  · rw [complete_ok _ _ hu]
    exact ⟨fun _ => ⟨ws, by simp [hlog], hlog⟩, fun hhalt => absurd hhalt hu⟩

/-- Settles O54: a drawing operation sends nothing, and the two panel operations send panel commands. -/
theorem onlyThirteenCommandsSent : Obligations.OnlyThirteenCommandsSent := by
  intro s t d text glyphs rest hp h
  obtain ⟨i, hi, hx⟩ := step_request hp h
  obtain ⟨es, htrace, hes⟩ := (exec_effect hx).sendsCommands hi
  exact ⟨es, htrace, hes none⟩

/-- Settles O57: a descriptor is read as a public operation, and with no frame of the sequencer's own left a step takes
an input or nothing. -/
theorem internalSequencesNotRequestable : Obligations.InternalSequencesNotRequestable := by
  refine ⟨rfl, fun cfg d text glyphs i h => isPublic_of_decode_request h, fun s t hframes h => ?_⟩
  rcases fetch_cases s with ⟨-, -, hf⟩ | ⟨rest, hp, hf⟩ | ⟨d, text, glyphs, rest, hp, -⟩ |
    ⟨symbols, rest, -, -, hown, -⟩
  · cases (step_nothing hf).symm.trans h
    exact ⟨hframes, .inl rfl⟩
  · cases (step_reset hf).symm.trans h
    exact ⟨rfl, .inr (.inl ⟨rest, hp⟩)⟩
  · obtain ⟨i, hi, hx⟩ := step_request hp h
    exact ⟨(exec_effect hx).logsGrow.frames.trans hframes, .inr (.inr ⟨d, text, glyphs, rest, i, hp, hi, hx⟩)⟩
  · cases hframes.symm.trans hown

/-- Settles O1: the decoder, run on each of the words. -/
theorem tableWordsDecode : Obligations.TableWordsDecode := by
  unfold Obligations.TableWordsDecode
  decide

/-- Settles O7: only CLEAR reads a field besides the selector. -/
theorem unusedFieldsIgnored : Obligations.UnusedFieldsIgnored := by
  intro cfg d text glyphs hr
  exact ⟨decode_request_initPanel cfg hr text glyphs, decode_request_clear cfg hr text glyphs,
    decode_request_display cfg hr text glyphs, decode_request_fillPattern cfg hr text glyphs,
    decode_request_fillCheckerboard cfg hr text glyphs⟩

/-- Settles O15: the request is admitted, so its encoding is the next thing refused. -/
theorem reservedEncodingRefused : Obligations.ReservedEncodingRefused := by
  intro s d text glyphs rest hlive hexec hp hres
  have hadm : s.admission = none := by simp [State.admission, hlive, hexec]
  have hrefusal : decodeRefusal s .reservedBits = .reservedEncoding ∧
      decodeRefusal s .reservedSelector = .reservedEncoding := by simp [decodeRefusal, hadm]
  by_cases hbits : d.reserved = 0#3
  · have hop : 6 ≤ d.op.toNat := hres.resolve_right (not_not.2 hbits)
    rw [step_rejects (fetch_request hp) (decode_request_reservedSelector s.cfg hbits text glyphs hop), hrefusal.2]
  · rw [step_rejects (fetch_request hp) (decode_request_reservedBits s.cfg hbits text glyphs), hrefusal.1]

/-- Settles O37: the two bytes are the remainder and the quotient by 256. -/
theorem littleEndianParameter : Obligations.LittleEndianParameter :=
  ⟨fun v hv => ⟨lo8 v, hi8 v, rfl, lo8_toNat v, hi8_toNat hv⟩, by decide, by decide⟩

/-- Settles O38: a command's statements are its byte and the layout's parameters, which are read off the layout. -/
theorem panelParameterLayout : Obligations.PanelParameterLayout :=
  ⟨fun cfg => ⟨rfl, rfl, rfl, rfl, rfl, rfl, rfl, rfl, rfl, rfl, rfl, rfl, fun _ hk => panelActs_of_ne cfg hk,
    panelActs_writeRamBw cfg⟩, by decide, by decide, by decide⟩

end Sys2Proof.Machine
end

section
/-! SUPPORT. Whatever the decoder reads is well formed (30_encoding.md R60, R66, R78), part by part: the command a byte
is read as, the operands of a DRAWTEXT, a request, a frame. -/

namespace Sys2Proof

theorem Config.lenFits_mono {cfg : Config} {m n : Nat} (h : cfg.lenFits n = true) (hmn : m ≤ n) :
    cfg.lenFits m = true := by
  simp only [Config.lenFits, Bool.and_eq_true, decide_eq_true_eq] at h ⊢
  omega

/-- A CMD symbol's byte is read as the spelling that well-formedness keeps (notes/assumptions/13.md). -/
theorem wf_decodeCommand (cfg : Config) (c : Byte) : (decodeCommand cfg c).wf cfg = true := by
  cases hc : cfg.commandOf c with
  | some k => simp [decodeCommand_of_some hc, PanelCommand.wf, Config.code_of_commandOf hc, hc]
  | none => simp [decodeCommand_of_none hc, Instr.wf, hc]

/-- A DRAWTEXT's operands are those of its descriptor's fields, whether a glyph source is supplied or not. -/
theorem decodeDrawText_eq_ok {cfg : Config} {d : Descriptor} {text : List Byte} {glyphs : Option GlyphSource}
    {i : Instr}
    (h : decodeDrawText cfg d text glyphs = .ok i) :
    ∃ gs, i = .drawText (cfg.coord d.x) (cfg.coord d.y) (text.take (cfg.textLen d.len)) gs d.arg8 := by
  simp only [decodeDrawText] at h
  split at h
  · cases h; exact ⟨none, rfl⟩
  · cases glyphs with
    | none => cases h
    | some gs =>
      simp only at h
      split at h
      · cases h
      · cases h; exact ⟨some gs, rfl⟩

theorem wf_of_decodeDrawText {cfg : Config} {d : Descriptor} {text : List Byte} {glyphs : Option GlyphSource}
    {i : Instr}
    (h : decodeDrawText cfg d text glyphs = .ok i) : i.wf cfg = true := by
  obtain ⟨gs, rfl⟩ := decodeDrawText_eq_ok h
  have hlen : cfg.lenFits (text.take (cfg.textLen d.len)).length = true :=
    Config.lenFits_mono (Config.lenFits_textLen cfg d.len) (List.length_take_le ..)
  simp only [Instr.wf, Config.coordFits_coord, hlen, Bool.and_self]

/-- Of the six host operations only DRAWTEXT has operands that must fit. -/
theorem wf_of_decode_request {cfg : Config} {d : Descriptor} {text : List Byte} {glyphs : Option GlyphSource}
    {i : Instr} (h : decode cfg (.request d text glyphs) = .ok i) : i.wf cfg = true := by
  simp only [decode, decodeRequest] at h
  split at h
  · cases h
  · split at h
    case h_4 => exact wf_of_decodeDrawText h
    all_goals cases h
    all_goals rfl

theorem wf_of_decode_frame {cfg : Config} {symbols : List Symbol} {i : Instr}
    (h : decode cfg (.frame symbols) = .ok i) : i.wf cfg = true := by
  rcases decode_frame_cases h with ⟨s, -, -, rfl⟩ | ⟨s, -, -, rfl⟩ | ⟨h2, hlen, -, rfl⟩
  · exact wf_decodeCommand cfg s.byte
  · rfl
  · simp [Instr.wf, h2, hlen]

end Sys2Proof
end

section
/-! SUPPORT. The three Transport sequences stepped by themselves (40_transport.md R92 to R94, notes/assumptions/11.md):
the state each answers when its call is let through, and the lengths of a block. -/

namespace Sys2Proof.Machine

variable {s : State}

section LetThrough

variable (live : s.pstate ≠ .halted) (hwf : s.cfg.wf = true) (hclear : s.linkClear 1)

include live hwf hclear

/-- A statement that is one Transport call, as an internal step. -/
theorem internal_transport_called {a : Act} {call : TransportCall} {level : Level} {bytes : List Byte}
    (ha : runAct a s = transport call level bytes s) :
    internal [a] s = .next (s.called level (callEvents s.cfg level bytes) 1) := by
  rw [internal_ok _ s live hwf, runActs_cons _ _ _ live, runActs_nil, ha,
    transport_called _ _ _ live (hclear 0 Nat.one_pos)]

theorem exec_sendCommand_called (c : Byte) :
    exec (.sendCommand c) s = .next (s.called 0#1 (callEvents s.cfg 0#1 [c]) 1) :=
  internal_transport_called live hwf hclear (a := .sendCommand c) rfl

theorem exec_sendData_called (d : Byte) :
    exec (.sendData d) s = .next (s.called 1#1 (callEvents s.cfg 1#1 [d]) 1) :=
  internal_transport_called live hwf hclear (a := .sendData d) rfl

end LetThrough

/-- A block of a length outside 1 to FB_SIZE is refused (40_transport.md R91, notes/assumptions/15.md). -/
theorem exec_sendDataBlock_badLength (live : s.pstate ≠ .halted) {bytes : List Byte}
    (h : bytes.length = 0 ∨ s.cfg.fbSize < bytes.length) :
    exec (.sendDataBlock bytes) s = .refused .blockLength := by
  rw [show exec (.sendDataBlock bytes) s = execSendDataBlock bytes s from rfl, execSendDataBlock, if_neg live, if_pos h]

/-- A block of 1 to FB_SIZE bytes is its one statement as an internal step. -/
theorem exec_sendDataBlock_internal (live : s.pstate ≠ .halted) {bytes : List Byte} (h1 : 1 ≤ bytes.length)
    (hlen : bytes.length ≤ s.cfg.fbSize) :
    exec (.sendDataBlock bytes) s = internal [.sendDataBlock bytes] s := by
  rw [show exec (.sendDataBlock bytes) s = execSendDataBlock bytes s from rfl, execSendDataBlock, if_neg live,
    if_neg (by omega)]

theorem exec_sendDataBlock_called (live : s.pstate ≠ .halted) (hwf : s.cfg.wf = true) (hclear : s.linkClear 1)
    {bytes : List Byte} (h1 : 1 ≤ bytes.length) (hlen : bytes.length ≤ s.cfg.fbSize) :
    exec (.sendDataBlock bytes) s =
      .next (setStreamIdx bytes.length (s.called 1#1 (callEvents s.cfg 1#1 bytes) 1)) := by
  rw [exec_sendDataBlock_internal live h1 hlen, internal_ok _ s live hwf, runActs_cons _ _ _ live, runActs_nil, runAct,
    sendDataBlock_called bytes live (hclear 0 Nat.one_pos)]

end Sys2Proof.Machine
end

section
/-! CERTIFICATE. The statements of 40_transport.md: O4, O33 to O35. -/

namespace Sys2Proof.Machine

/-- Settles O4: a request's operands are read from fields that hold them, and a frame is read in the spelling that
well-formedness keeps. -/
theorem decodedInstrWellFormed : Obligations.DecodedInstrWellFormed := by
  intro cfg w i h
  cases w with
  | request d text glyphs => exact wf_of_decode_request h
  | frame symbols => exact wf_of_decode_frame h

/-- Settles O35: the length is checked, and then the block is one call let through. -/
theorem sendDataBlockFrame : Obligations.SendDataBlockFrame := by
  intro s bytes live hwf
  refine ⟨fun h1 hlen hclear => ⟨_, exec_sendDataBlock_called live hwf hclear h1 hlen, ?_, rfl⟩,
    exec_sendDataBlock_badLength live⟩
  rw [setStreamIdx_trace, called_trace, callEvents]

/-- Settles O33: one call let through, with the select line low. -/
theorem sendCommandFrame : Obligations.SendCommandFrame :=
  fun _ c live hwf hclear => ⟨_, exec_sendCommand_called live hwf hclear c, called_trace .., rfl⟩

/-- Settles O34: one call let through, with the select line high. -/
theorem sendDataFrame : Obligations.SendDataFrame :=
  fun _ d live hwf hclear => ⟨_, exec_sendData_called live hwf hclear d, called_trace .., rfl⟩

end Sys2Proof.Machine
end

section
/-! SUPPORT. The wait, sample by sample (41_panel_protocol.md R104, R105). -/

namespace Sys2Proof.Machine

theorem busyPairs_succ (cfg : Config) (k : Nat) :
    busyPairs cfg (k + 1) = busyPairs cfg k ++ [.busy cfg.busyActiveLevel, .delay cfg.busyPollIntervalMs] := by
  simp [busyPairs, List.replicate_succ']

/-- The state after `k` busy samples, each with its delay. -/
def State.polled (s : State) (k : Nat) : State :=
  { s with traceRev := (busyPairs s.cfg k).reverse ++ s.traceRev, env := s.env.takeBusys k,
           work := { s.work with pollCnt := s.work.pollCnt + k, delayTmr := if k = 0 then s.work.delayTmr else 0 } }

@[simp] theorem polled_zero (s : State) : s.polled 0 = s := by
  simp [State.polled, busyPairs]

@[simp] theorem polled_cfg (s : State) (k : Nat) : (s.polled k).cfg = s.cfg := rfl

@[simp] theorem polled_trace (s : State) (k : Nat) : (s.polled k).trace = s.trace ++ busyPairs s.cfg k := by
  simp [State.trace, State.polled]

@[simp] theorem polled_busyAnswer (s : State) (k : Nat) : (s.polled k).busyAnswer 0 = s.busyAnswer k :=
  busyAnswer_takeBusys rfl 0

/-- One more busy sample. -/
theorem polled_succ {s : State} {k : Nat} (h : s.busyAnswer k = s.cfg.busyActiveLevel) :
    delayMs s.cfg.busyPollIntervalMs (setPollCnt ((s.polled k).work.pollCnt + 1) (sampleBusy (s.polled k))) =
      s.polled (k + 1) := by
  rw [sampleBusy, polled_busyAnswer, h]
  simp [State.polled, delayMs, setPollCnt, emit, Env.takeBusys, busyPairs_succ, Nat.add_assoc]

/-- The poll loop goes on over busy samples. -/
theorem pollLoop_busyFor (site : WaitSite) {s : State} {k : Nat} (h : s.busyFor k) (m : Nat) :
    pollLoop site (k + m) s = pollLoop site m (s.polled k) := by
  induction k generalizing m with
  | zero => simp
  | succ k ih =>
    have hk : s.busyAnswer k = s.cfg.busyActiveLevel := h k (Nat.lt_succ_self k)
    have hbusy : (s.polled k).busyAnswer 0 = (s.polled k).cfg.busyActiveLevel := (polled_busyAnswer s k).trans hk
    calc pollLoop site (k + 1 + m) s = pollLoop site (k + (m + 1)) s := by rw [Nat.add_assoc, Nat.add_comm 1]
      _ = pollLoop site (m + 1) (s.polled k) := ih (fun j hj => h j (Nat.lt_succ_of_lt hj)) (m + 1)
      _ = pollLoop site m (s.polled (k + 1)) := by rw [pollLoop_busy _ _ _ hbusy, polled_cfg, polled_succ hk]

/-- WAITBUSY whose first released sample is the `k`-th. -/
theorem waitBusy_released (site : WaitSite) {s : State} {k : Nat} (hk : k < s.cfg.busyPollMax) (hbusy : s.busyFor k)
    (hfree : s.busyAnswer k ≠ s.cfg.busyActiveLevel) :
    waitBusy site s = setPollCnt (k + 1) (sampleBusy ((setPollCnt 0 s).polled k)) := by
  obtain ⟨m, hm⟩ := Nat.exists_eq_add_of_lt hk
  have hstop : ((setPollCnt 0 s).polled k).busyAnswer 0 ≠ ((setPollCnt 0 s).polled k).cfg.busyActiveLevel := by
    rw [polled_busyAnswer]; exact hfree
  rw [waitBusy, hm, Nat.add_assoc, pollLoop_busyFor site (s := setPollCnt 0 s) hbusy, pollLoop_released _ _ _ hstop]
  simp [State.polled]

/-- WAITBUSY when every sample is busy. -/
theorem waitBusy_timeout (site : WaitSite) {s : State} (hbusy : s.busyFor s.cfg.busyPollMax) :
    waitBusy site s = warn (.busyTimeout site) ((setPollCnt 0 s).polled s.cfg.busyPollMax) :=
  pollLoop_busyFor site (s := setPollCnt 0 s) hbusy 0

end Sys2Proof.Machine
end

section
/-! SUPPORT. INITIALIZE and DISPLAY when the link layer reports no failure: their transfers, delays, warnings and the
state they complete in (41_panel_protocol.md R110, R112, R115, R117). -/

namespace Sys2Proof.Machine

@[simp] theorem complete_pstate (logged : Nat) (s : State) : (complete logged s).pstate = s.pstate := by
  unfold complete
  split <;> rfl

theorem PanelOperation.live {s : State} {i : Instr} {as : List Act} (h : PanelOperation s i as) :
    s.pstate ≠ .halted := by
  cases h with
  | initPanel hp | display hp => rw [hp]; decide

/-- An operation on the panel that is admitted runs its sequence. -/
theorem PanelOperation.exec_eq {s : State} {i : Instr} {as : List Act} (h : PanelOperation s i as)
    (hexec : s.exec = false) (hwf : s.cfg.wf = true) :
    ∃ op, exec i s = .next (complete s.warnlog.length (runActs as (accept op s))) := by
  have ready : s.ready := ⟨h.live, hexec, hwf⟩
  cases h with
  | initPanel hp =>
    exact ⟨.initPanel, by rw [exec, execInitPanel, (stateCheck_eq_none_iff ..).2 hp, request_ready _ _ _ ready]⟩
  | display hp =>
    exact ⟨.display, by rw [exec, execDisplay, (stateCheck_eq_none_iff ..).2 hp, request_ready _ _ _ ready]⟩

/-- The completed state of an operation whose calls were all let through and that ends in Idle. -/
theorem ClearEffect.complete_eq {as : List Act} {op : Operation} {s u : State} (h : ClearEffect as (accept op s) u)
    (hidle : stateAfter as s.pstate = .idle) (hexec : s.exec = false) (logged : Nat) :
    complete logged u =
      { s with pstate := .idle, rst := rstAfter as s.rst, dc := dcAfter as s.dc,
               cs := if callCount as = 0 then s.cs else s.cfg.csIdleLevel,
               traceRev := u.traceRev, warnlog := u.warnlog, wflags := u.wflags,
               response := some (u.warnlog.drop logged),
               work := { s.work with pollCnt := u.work.pollCnt, delayTmr := u.work.delayTmr,
                                     streamIdx := u.work.streamIdx },
               env := { s.env.takeLinks (callCount as) with
                          busyAnswers := u.env.busyAnswers, busyTaken := u.env.busyTaken },
               ctx := ⟨none, 0⟩ } := by
  have hframe := h.frame
  rw [accept_pstate, hidle] at hframe
  have hlive : u.pstate ≠ .halted := fun hp => absurd (hp.symm.trans (congrArg State.pstate hframe)) nofun
  rw [complete_ok _ _ hlive, hframe]
  simp [accept, ← hexec]

theorem panelSeq_cons (cfg : Config) (k : PanelCommand) (ks : List PanelCommand) :
    panelSeq cfg (k :: ks) = panelActs cfg k ++ panelSeq cfg ks := rfl

theorem callCount_panelSeq (cfg : Config) {ks : List PanelCommand} (h : .writeRamBw ∉ ks) :
    callCount (panelSeq cfg ks) = (ks.map (panelCalls cfg)).sum := by
  induction ks with
  | nil => rfl
  | cons k ks ih =>
    obtain ⟨hk, hks⟩ := not_or.1 (mt List.mem_cons.2 h)
    rw [panelSeq_cons, callCount_append, callCount_panel _ _ (Ne.symm hk), ih hks, List.map_cons, List.sum_cons]

/-- Panel commands cannot time out and request no delay. -/
theorem panelSeq_quiet (c cfg : Config) (ks : List PanelCommand) :
    timeouts (panelSeq cfg ks) = [] ∧ maxDelay c (panelSeq cfg ks) = 0 := by
  induction ks with
  | nil => exact ⟨rfl, rfl⟩
  | cons k ks ih =>
    obtain ⟨htimeouts, hdelay⟩ := panelActs_quiet c cfg k
    rw [panelSeq_cons, timeouts_append, maxDelay_append, htimeouts, hdelay, ih.1, ih.2]
    exact ⟨rfl, rfl⟩

/-! ### INITIALIZE -/

theorem callCount_initActs (cfg : Config) : callCount (initActs cfg) = initCalls cfg := by
  simp (disch := decide) only [initActs, callCount_append, callCount_panelSeq, callCount_panel]
  simp [callCount, Act.calls, panelCalls, panelParams, le16, initCalls]
  omega

theorem timeouts_initActs (cfg : Config) :
    timeouts (initActs cfg) = [.busyTimeout .afterHwReset, .busyTimeout .afterSwReset, .busyTimeout .afterConfig] := by
  simp only [initActs, timeouts_append, (panelSeq_quiet cfg cfg _).1, (panelActs_quiet cfg cfg _).1]
  rfl

theorem maxDelay_initActs (cfg : Config) :
    maxDelay cfg (initActs cfg) = cfg.tResetSettleMs + cfg.tResetLowMs + cfg.tResetReleaseMs +
      3 * (cfg.busyPollMax * cfg.busyPollIntervalMs) := by
  simp only [initActs, maxDelay_append, (panelSeq_quiet cfg cfg _).2, (panelActs_quiet cfg cfg _).2]
  simp [maxDelay, Act.maxDelay]
  omega

/-- INITIALIZE's last call sends a parameter. -/
theorem dcAfter_initActs (cfg : Config) (v : Level) : dcAfter (initActs cfg) v = 1#1 := by
  simp only [initActs, panelSeq_cons, dcAfter_append]
  rfl

/-- Of the panel commands only the RAM write streams a block. -/
theorem any_isBlock_panelActs (cfg : Config) {k : PanelCommand} (hk : k ≠ .writeRamBw) :
    (panelActs cfg k).any Act.isBlock = false := by
  simp [panelActs_of_ne cfg hk, Act.isBlock]

theorem any_isBlock_panelSeq (cfg : Config) {ks : List PanelCommand} (h : .writeRamBw ∉ ks) :
    (panelSeq cfg ks).any Act.isBlock = false := by
  rw [panelSeq, List.any_flatMap, List.any_eq_false]
  intro k hk
  rw [any_isBlock_panelActs cfg fun he => h (he ▸ hk)]
  decide

/-- INITIALIZE streams no block. -/
theorem isBlock_initActs (cfg : Config) : ∀ a ∈ initActs cfg, a.isBlock = false := by
  have h : (initActs cfg).any Act.isBlock = false := by
    simp (disch := decide) only [initActs, List.any_append, any_isBlock_panelActs, any_isBlock_panelSeq]
    rfl
  simpa using h

/-! ### DISPLAY -/

/-- What DISPLAY does before its wait (41_panel_protocol.md R115). -/
def displaySends (cfg : Config) : List Act :=
  [.setState .updating,
   .sendCommand cfg.cmd.setRamXCounter, .sendData 0x00#8,
   .sendCommand cfg.cmd.setRamYCounter, .sendData 0x00#8, .sendData 0x00#8,
   .sendCommand cfg.cmd.writeRamBw, .sendFramebuffer,
   .sendCommand cfg.cmd.displayUpdateControl2, .sendData cfg.updateModeFull,
   .sendCommand cfg.cmd.masterActivation]

/-- DISPLAY's wait and what comes after it. -/
def displayWait : List Act := [.waitBusy .afterActivation, .setState .idle]

theorem displayActs_eq (cfg : Config) : displayActs cfg = displaySends cfg ++ displayWait := rfl

theorem callCount_displaySends (cfg : Config) : callCount (displaySends cfg) = 10 := by
  simp [callCount, displaySends, Act.calls]

theorem callCount_displayActs (cfg : Config) : callCount (displayActs cfg) = 10 := by
  rw [displayActs_eq, callCount_append, callCount_displaySends]
  rfl

theorem rstAfter_displayActs (cfg : Config) (v : Level) : rstAfter (displayActs cfg) v = v := rfl

/-- DISPLAY's last call is a command without parameters. -/
theorem dcAfter_displayActs (cfg : Config) (v : Level) : dcAfter (displayActs cfg) v = 0#1 := rfl

theorem setState_halted_not_mem_displaySends (cfg : Config) : Act.setState .halted ∉ displaySends cfg := by
  simp [displaySends]

/-- DISPLAY sends everything before it waits. -/
theorem displaySends_no_wait (cfg : Config) :
    ∀ a ∈ displaySends cfg, a ≠ .hwReset ∧ ∀ site, a ≠ .waitBusy site := by
  simp [displaySends]

end Sys2Proof.Machine
end

section
/-! SUPPORT. The trace of a sequence when no call fails and every wait is released at its first sample
(41_panel_protocol.md R111, R116). -/

namespace Sys2Proof.Machine

/-- The BUSY samples of a statement whose wait is released at the first. -/
def Act.samples : Act → Nat
  | .waitBusy _ => 1
  | _           => 0

/-- The BUSY samples of a sequence whose waits are so. -/
def sampleCount (as : List Act) : Nat := (as.map Act.samples).sum

theorem sampleCount_displayActs (cfg : Config) : sampleCount (displayActs cfg) = 1 := by
  simp [sampleCount, displayActs_eq, displaySends, displayWait, Act.samples]

/-- The events of a statement whose call is let through, or whose wait is released at a first sample `v`; `fb` is the
framebuffer. -/
def Act.events (cfg : Config) (fb : List Byte) (v : Level) : Act → List Event
  | .setState _          => []
  | .hwReset             => [.rst 1#1, .delay cfg.tResetSettleMs, .rst 0#1, .delay cfg.tResetLowMs, .rst 1#1,
                             .delay cfg.tResetReleaseMs]
  | .waitBusy _          => [.busy v]
  | .sendCommand c       => callEvents cfg 0#1 [c]
  | .sendData d          => callEvents cfg 1#1 [d]
  | .sendDataBlock bytes => callEvents cfg 1#1 bytes
  | .sendFramebuffer     => callEvents cfg 1#1 fb

/-- The next `links` calls are let through, and the next `samples` samples are `v`, which releases a wait. -/
structure Quiet (v : Level) (links samples : Nat) (s : State) : Prop where
  live : s.pstate ≠ .halted
  clear : s.linkClear links
  sampled : ∀ k, k < samples → s.busyAnswer k = v
  released : v ≠ s.cfg.busyActiveLevel
  polls : 1 ≤ s.cfg.busyPollMax

theorem Quiet.mono {v : Level} {links links' samples samples' : Nat} {s : State} (h : Quiet v links samples s)
    (hl : links' ≤ links) (hs : samples' ≤ samples) : Quiet v links' samples' s :=
  ⟨h.live, linkClear_mono h.clear hl, fun k hk => h.sampled k (Nat.lt_of_lt_of_le hk hs), h.released, h.polls⟩

/-- Acceptance asks nothing of the environment. -/
theorem Quiet.accept {v : Level} {links samples : Nat} {s : State} (h : Quiet v links samples s) (op : Operation) :
    Quiet v links samples (accept op s) :=
  ⟨h.live, h.clear, h.sampled, h.released, h.polls⟩

theorem transport_quiet (call : TransportCall) (level : Level) (bytes : List Byte) {s : State}
    (live : s.pstate ≠ .halted) (h : s.linkAnswer 0 = 0#1) :
    (transport call level bytes s).trace = s.trace ++ callEvents s.cfg level bytes ∧
      (transport call level bytes s).env = (s.env.takeLinks 1).takeBusys 0 := by
  rw [transport_called _ _ _ live h]
  exact ⟨called_trace .., (Env.takeBusys_zero _).symm⟩

theorem sendDataBlock_quiet (bytes : List Byte) {s : State} (live : s.pstate ≠ .halted) (h : s.linkAnswer 0 = 0#1) :
    (sendDataBlock bytes s).trace = s.trace ++ callEvents s.cfg 1#1 bytes ∧
      (sendDataBlock bytes s).env = (s.env.takeLinks 1).takeBusys 0 := by
  rw [sendDataBlock_called _ live h]
  exact ⟨(setStreamIdx_trace ..).trans (called_trace ..), (Env.takeBusys_zero _).symm⟩

/-- The events of a quiet statement, and the answers it takes. -/
theorem runAct_quiet (a : Act) {v : Level} {s : State} (h : Quiet v a.calls a.samples s) :
    (runAct a s).trace = s.trace ++ a.events s.cfg s.fbBytes v ∧
      (runAct a s).env = (s.env.takeLinks a.calls).takeBusys a.samples := by
  cases a with
  | setState p => exact ⟨by simp [runAct, Act.events], by simp [runAct, Act.calls, Act.samples]⟩
  | hwReset =>
    rw [runAct, hwReset_eq]
    exact ⟨by simp [State.trace, Act.events], by simp [Act.calls, Act.samples]⟩
  | waitBusy site =>
    have hv : s.busyAnswer 0 = v := h.sampled 0 Nat.one_pos
    have hfirst : (setPollCnt 0 s).busyAnswer 0 = v := hv
    have hnone : s.busyFor 0 := fun k hk => absurd hk (Nat.not_lt_zero k)
    rw [runAct, waitBusy_released site h.polls hnone (hv ▸ h.released), polled_zero]
    exact ⟨by simp [hfirst, Act.events], by simp [Act.calls, Act.samples]⟩
  | sendCommand c => exact transport_quiet _ _ _ h.live (h.clear 0 Nat.one_pos)
  | sendData d => exact transport_quiet _ _ _ h.live (h.clear 0 Nat.one_pos)
  | sendDataBlock bytes => exact sendDataBlock_quiet bytes h.live (h.clear 0 Nat.one_pos)
  | sendFramebuffer => exact sendDataBlock_quiet s.fbBytes h.live (h.clear 0 Nat.one_pos)

/-- A statement whose calls are let through does not end in Halted. -/
theorem runAct_live {a : Act} {s : State} (live : s.pstate ≠ .halted) (hclear : s.linkClear a.calls)
    (ha : a ≠ .setState .halted) : (runAct a s).pstate ≠ .halted := by
  rw [congrArg State.pstate (runAct_clear a s live hclear).frame]
  cases a with
  | setState p => exact fun hp => ha (congrArg Act.setState hp)
  | _ => exact live

/-- After a quiet statement what is to come is as quiet as it was. -/
theorem Quiet.runAct {a : Act} {v : Level} {links samples : Nat} {s : State}
    (h : Quiet v (a.calls + links) (a.samples + samples) s) (ha : a ≠ .setState .halted) :
    Quiet v links samples (runAct a s) := by
  have hnow : Quiet v a.calls a.samples s := h.mono (Nat.le_add_right ..) (Nat.le_add_right ..)
  have henv := (runAct_quiet a hnow).2
  have hcfg := (runAct_effect a s h.live ha).cfg
  refine ⟨runAct_live h.live hnow.clear ha, fun k hk => ?_, fun k hk => ?_, hcfg ▸ h.released, hcfg ▸ h.polls⟩
  · have hk' := h.clear (a.calls + k) (Nat.add_lt_add_left hk _)
    simpa [State.linkAnswer, henv, Env.takeLinks, Env.takeBusys, Nat.add_assoc] using hk'
  · have hk' := h.sampled (a.samples + k) (Nat.add_lt_add_left hk _)
    simpa [State.busyAnswer, henv, Env.takeLinks, Env.takeBusys, Nat.add_assoc] using hk'

/-- The trace of a quiet sequence is the events of its statements. -/
theorem runActs_quiet {as : List Act} {v : Level} {s : State} (h : Quiet v (callCount as) (sampleCount as) s)
    (ha : Act.setState .halted ∉ as) :
    (runActs as s).trace = s.trace ++ as.flatMap (Act.events s.cfg s.fbBytes v) := by
  induction as generalizing s with
  | nil => simp
  | cons a as ih =>
    obtain ⟨hne, htail⟩ := not_or.1 (mt List.mem_cons.2 ha)
    have hnow : Quiet v a.calls a.samples s := h.mono (Nat.le_add_right ..) (Nat.le_add_right ..)
    have heff := runAct_effect a s h.live (Ne.symm hne)
    have hfb : (runAct a s).fbBytes = s.fbBytes := by rw [State.fbBytes, heff.fb, heff.epoch, heff.cfg]; rfl
    rw [runActs_cons _ _ _ h.live, ih (h.runAct (Ne.symm hne)) htail, (runAct_quiet a hnow).1, heff.cfg, hfb,
      List.flatMap_cons, List.append_assoc]

/-- An operation on the panel that meets a quiet panel and link layer answers with the events of its statements. -/
theorem PanelOperation.quiet_trace {s : State} {i : Instr} {as : List Act} {v : Level} (h : PanelOperation s i as)
    (hexec : s.exec = false) (hwf : s.cfg.wf = true) (hquiet : Quiet v (callCount as) (sampleCount as) s) :
    ∃ t, exec i s = .next t ∧ t.trace = s.trace ++ as.flatMap (Act.events s.cfg s.fbBytes v) := by
  obtain ⟨op, hx⟩ := h.exec_eq hexec hwf
  exact ⟨_, hx, (complete_trace ..).trans (runActs_quiet (hquiet.accept op) h.halted_not_mem)⟩

end Sys2Proof.Machine
end

section
/-! CERTIFICATE. The statements of 41_panel_protocol.md: O41 to O46, O50. -/

namespace Sys2Proof.Machine
/-- Settles O42: the loop goes on over the busy samples, and then is released or has no sample left. -/
theorem waitBusyBounded : Obligations.WaitBusyBounded := by
  intro s site
  refine ⟨fun k hk hbusy hfree => ?_, fun hbusy => ?_⟩
  · have hlevel : ((setPollCnt 0 s).polled k).busyAnswer 0 = s.busyAnswer k := polled_busyAnswer _ k
    rw [waitBusy_released site hk hbusy hfree]
    refine ⟨by simp [hlevel], rfl, ?_⟩
    rw [← Env.takeBusys_takeBusys]
    simp [setPollCnt, sampleBusy, emit, State.polled, Env.takeBusys]
  · rw [waitBusy_timeout site hbusy]
    exact ⟨polled_trace _ _, Nat.zero_add _, rfl⟩

/-- Settles O43: every call is let through, so the sequence runs to its end, and only its three waits can warn. -/
theorem initializeCompletes : Obligations.InitializeCompletes := by
  intro s hp hexec hwf hclear
  have hop : PanelOperation s .initPanel (initActs s.cfg) := .initPanel hp
  obtain ⟨op, hx⟩ := hop.exec_eq hexec hwf
  have heff : ClearEffect (initActs s.cfg) (accept op s) (runActs (initActs s.cfg) (accept op s)) :=
    runActs_clear _ _ hop.live hop.halted_not_mem (by rw [callCount_initActs]; exact hclear)
  have hend := heff.complete_eq (hop.stateAfter _) hexec s.warnlog.length
  rw [hop.rstAfter (by simp [hp]), dcAfter_initActs, callCount_initActs, if_neg (by simp [initCalls]),
    heff.stream (isBlock_initActs _)] at hend
  obtain ⟨es, ws, htrace, hxfers, hlog, hws, hdelay, -, -⟩ := heff.parts
  rw [callCount_initActs] at hxfers
  rw [accept_warnlog] at hlog
  rw [timeouts_initActs] at hws
  rw [accept_cfg, maxDelay_initActs] at hdelay
  refine ⟨_, es, ws, hx, (complete_trace ..).trans htrace, hxfers, hdelay, hws, ?_, ?_, ?_⟩
  · rw [hend]; exact hlog
  · rw [hend, hlog, List.drop_left]
  · rw [hend]; rfl

/-- Settles O44: every statement is quiet, and the frame level groups the events of each call. -/
theorem initializeFrameTrace : Obligations.InitializeFrameTrace := by
  intro s hcfg hp hexec hclear hsamples
  have hop : PanelOperation s .initPanel (initActs s.cfg) := .initPanel hp
  have hquiet : Quiet 0#1 (callCount (initActs s.cfg)) (sampleCount (initActs s.cfg)) s := by
    rw [hcfg]
    exact ⟨hop.live, hclear, hsamples, by rw [hcfg]; decide, by rw [hcfg]; decide⟩
  obtain ⟨t, hx, htrace⟩ := hop.quiet_trace hexec (by rw [hcfg]; decide) hquiet
  refine ⟨t, _, hx, htrace, ?_⟩
  rw [hcfg]
  rfl

/-- Settles O45: every call is let through, so the sequence comes to its wait, which returns whatever the panel
answers. -/
theorem displayCompletes : Obligations.DisplayCompletes := by
  intro s hp hexec hwf hclear
  have hop : PanelOperation s .display (displayActs s.cfg) := .display hp
  obtain ⟨op, hx⟩ := hop.exec_eq hexec hwf
  rw [displayActs_eq, runActs_append] at hx
  have hsends : ClearEffect (displaySends s.cfg) (accept op s) (runActs (displaySends s.cfg) (accept op s)) :=
    runActs_clear _ _ hop.live (setState_halted_not_mem_displaySends _) (by rw [callCount_displaySends]; exact hclear)
  generalize runActs (displaySends s.cfg) (accept op s) = u at *
  have hcfg : u.cfg = s.cfg := by rw [hsends.frame]; rfl
  have hupdating : u.pstate = .updating := by rw [hsends.frame]; rfl
  have hwait : ClearEffect displayWait u (runActs displayWait u) :=
    runActs_clear _ _ (by rw [hupdating]; decide) (by decide) nofun
  have heff : ClearEffect (displayActs s.cfg) (accept op s) (runActs displayWait u) := hsends.append hwait
  have hend := heff.complete_eq (hop.stateAfter _) hexec s.warnlog.length
  rw [rstAfter_displayActs, dcAfter_displayActs, callCount_displayActs, if_neg (by decide)] at hend
  obtain ⟨es, ws, htrace, hxfers, hlog, hws, -, hsent, -⟩ := hsends.parts
  obtain ⟨waits, ws', htrace', -, hlog', hws', hdelay, -, hwaits⟩ := hwait.parts
  rw [callCount_displaySends] at hxfers
  obtain rfl : ws = [] := List.sublist_nil.1 hws
  have hlogged : (runActs displayWait u).warnlog = s.warnlog ++ ws' := by simp [hlog', hlog]
  refine ⟨_, es, waits, ws', hx, ?_, hxfers, hsent (displaySends_no_wait _), hwaits (by decide), ?_,
    List.sublist_singleton.1 hws', ?_, ?_, ?_⟩
  · rw [complete_trace, htrace', htrace, accept_trace]
  · simpa [displayWait, maxDelay, Act.maxDelay, hcfg] using hdelay
  · rw [hend]; exact hlogged
  · rw [hend, hlogged, List.drop_left]
  · rw [hend, hp]

/-- Settles O46: every statement is quiet, the frame level groups the events of each call, and a canonical framebuffer
is streamed in address order. -/
theorem displayFrameTrace : Obligations.DisplayFrameTrace := by
  intro s hp hexec hwf hfb hclear hfree
  have hop : PanelOperation s .display (displayActs s.cfg) := .display hp
  obtain ⟨-, -, -, -, -, hpolls, -⟩ := Config.wf_bounds hwf
  have hquiet : Quiet (s.busyAnswer 0) (callCount (displayActs s.cfg)) (sampleCount (displayActs s.cfg)) s := by
    rw [callCount_displayActs, sampleCount_displayActs]
    exact ⟨hop.live, hclear, fun k hk => by rw [Nat.lt_one_iff.1 hk], hfree, hpolls⟩
  obtain ⟨t, hx, htrace⟩ := hop.quiet_trace hexec hwf hquiet
  refine ⟨t, _, hx, htrace, ?_⟩
  rw [fbBytes_eq_payload s hfb]
  rfl

/-- Settles O50: a drawing operation leaves PSTATE; a sequence ends where its statements leave PSTATE, unless a bus
fault stops it in Halted. -/
theorem protocolTransitions : Obligations.ProtocolTransitions := by
  intro i s t h
  cases exec_effect h with
  | drawing op u _ _ body ht => exact .inl (by rw [ht, complete_pstate, body.pstate, accept_pstate])
  | panel op as hi _ ht =>
    have hend : t.pstate = .halted ∨ t.pstate = .idle := by
      rw [ht, complete_pstate, ← hi.stateAfter s.pstate]
      exact (runActs_endsAs as (accept op s)).imp_right And.left
    cases hi with
    | initPanel hp => exact .inr (.inl ⟨rfl, hp, hend.symm⟩)
    | display hp =>
      rcases hend with hhalt | hidle
      · exact .inr (.inr (.inl ⟨rfl, hp, hhalt⟩))
      · exact .inl (hidle.trans hp.symm)
  | sequence as hi _ ha ht =>
    rcases runActs_endsAs as s with hhalt | ⟨hstate, -⟩
    · exact .inr (.inr (.inr ⟨ht ▸ hhalt, internal_instr_cases hi⟩))
    · exact .inl (by rw [ht, hstate, stateAfter_plain ha])

/-- Settles O41: HWRESET as one update. -/
theorem hwResetPulse : Obligations.HwResetPulse := by
  intro s
  rw [hwReset_eq]
  exact ⟨by simp [State.trace], rfl⟩

end Sys2Proof.Machine
end

section
/-! SUPPORT. The state that an operation on the whole framebuffer answers (42_framebuffer.md R136), and that a drawing
operation is nothing but its body between acceptance and completion. -/

namespace Sys2Proof.Machine

/-! ### The whole framebuffer -/

/-- The state answered by an operation that wrote `f i` at every address `i` of FB and logged no warning. -/
def State.filled (s : State) (f : Nat → Byte) : State :=
  { s with fb := s.fb.fill s.cfg.fbSize f, work := { s.work with streamIdx := s.cfg.fbSize },
           response := some [], ctx := ⟨none, 0⟩ }

/-- A request to fill the framebuffer is not refused from a state that is ready, and warns of nothing. -/
theorem request_fillFb (op : Operation) (f : Nat → Byte) {s : State} (ready : s.ready) :
    request op none (fillFb f) s = .next (s.filled f) := by
  have live : (fillFb f (accept op s)).pstate ≠ .halted := ready.1
  have hexec : s.exec = false := ready.2.1
  rw [request_ready _ _ _ ready, complete_ok _ _ live]
  simp [State.filled, fillFb, setStreamIdx, ← hexec]

/-- Completion does not touch the bytes that the fill wrote. -/
theorem readFb_filled (s : State) (f : Nat → Byte) (a : Nat) :
    (s.filled f).readFb a = if a < s.cfg.fbSize then f a else s.readFb a :=
  readFb_fillFb s f a

theorem readFb_filled_of_lt {s : State} (f : Nat → Byte) {a : Nat} (h : a < s.cfg.fbSize) :
    (s.filled f).readFb a = f a := by
  rw [readFb_filled, if_pos h]

theorem readFb_filled_of_ge {s : State} (f : Nat → Byte) {a : Nat} (h : s.cfg.fbSize ≤ a) :
    (s.filled f).readFb a = s.readFb a := by
  rw [readFb_filled, if_neg (Nat.not_lt.2 h)]

/-- What a fill by row and column wrote at a row and a column (20_memory.md R40). -/
theorem readFb_filled_at (s : State) (f : Nat → Nat → Byte) {r c : Nat} (hr : r < s.cfg.ramHeight)
    (hc : c < s.cfg.rowStride) :
    (s.filled fun i => f (i / s.cfg.rowStride) (i % s.cfg.rowStride)).readFb (r * s.cfg.rowStride + c) = f r c := by
  obtain ⟨hlt, hrow, hcol⟩ := byte_at hr hc
  rw [readFb_filled_of_lt _ hlt, hrow, hcol]

/-! ### The drawing operations -/

theorem IsDrawing.isPublic {i : Instr} (h : IsDrawing i) : isPublic i = true := by
  rcases h with ⟨fill, rfl⟩ | rfl | rfl | ⟨x, y, text, glyphs, color, rfl⟩ <;> rfl

theorem PanelOperation.not_isDrawing {s : State} {i : Instr} {as : List Act} (h : PanelOperation s i as) :
    ¬ IsDrawing i := by
  cases h <;> simp [IsDrawing]

/-- A drawing operation that answers a state ran a drawing body between acceptance and completion. -/
theorem ExecEffect.drawing_ran {i : Instr} {s t : State} (h : ExecEffect i s t) (hi : IsDrawing i) :
    ∃ op u, s.pstate ≠ .halted ∧ DrawEffect (accept op s) u ∧ t = complete s.warnlog.length u := by
  cases h with
  | drawing op u _ ready body ht => exact ⟨op, u, ready.1, body, ht⟩
  | panel _ _ ha => exact absurd hi ha.not_isDrawing
  | sequence _ hn => exact absurd (hi.isPublic.symm.trans hn) (by decide)

end Sys2Proof.Machine
end

section
/-! CERTIFICATE. The statements of 42_framebuffer.md: O21 to O23, O55. -/

namespace Sys2Proof.Machine

/-- Settles O21: the fill's function is the same at every address. -/
theorem clearFillsFramebuffer : Obligations.ClearFillsFramebuffer := by
  intro s fill ready
  have hx : exec (.clear fill) s = .next (s.filled fun _ => fill) := request_fillFb .clear _ ready
  exact ⟨_, hx, fun _ hi => readFb_filled_of_lt _ hi, fun _ hi => readFb_filled_of_ge _ hi, rfl⟩

/-- Settles O22: the fill's function looks at the row of an address alone. -/
theorem fillPatternStripes : Obligations.FillPatternStripes := by
  intro s ready
  have hx : exec .fillPattern s = .next (s.filled fun i => stripeByte s.cfg (i / s.cfg.rowStride)) :=
    request_fillFb .fillPattern _ ready
  refine ⟨_, hx, fun r c hr hc => ?_, fun _ hi => readFb_filled_of_ge _ hi, rfl⟩
  exact readFb_filled_at s (fun row _ => stripeByte s.cfg row) hr hc

/-- Settles O23: the fill's function looks at the row and the column of an address. -/
theorem fillCheckerboardFormula : Obligations.FillCheckerboardFormula := by
  intro s ready
  have hx : exec .fillCheckerboard s =
      .next (s.filled fun i => checkerByte s.cfg (i / s.cfg.rowStride) (i % s.cfg.rowStride)) :=
    request_fillFb .fillCheckerboard _ ready
  refine ⟨_, hx, fun r c hr hc => ?_, fun _ hi => readFb_filled_of_ge _ hi, rfl⟩
  exact readFb_filled_at s (checkerByte s.cfg) hr hc

/-- Settles O55: acceptance and completion touch neither the lines nor the environment, and no drawing body does; it
does not end in Halted, so that it completes. -/
theorem drawingStaysOffTheLink : Obligations.DrawingStaysOffTheLink := by
  intro i s t h hi
  obtain ⟨op, u, live, body, rfl⟩ := (exec_effect h).drawing_ran hi
  have hu : u.pstate ≠ .halted := body.pstate.trans_ne live
  rw [complete_ok _ _ hu]
  exact ⟨body.pstate, body.cs, body.dc, body.rst, body.trace, body.env, body.busFault⟩

end Sys2Proof.Machine
end

section
/-! SUPPORT. What DRAWTEXT answers (43_rasterizer.md R154, R155), the ink of a text character by character (R157), and
that the drawing loops see of a state only its parameters, its framebuffer and the cursor. -/

namespace Sys2Proof.Machine

/-! ### The answered state -/

/-- The body of a DRAWTEXT that nothing refuses does not end in Halted, so that the operation completes. -/
theorem exec_drawText_eq (x y : Int) (text : List Byte) {glyphs : Option GlyphSource} (color : Byte) {s : State}
    (ready : s.ready) (hcheck : glyphTableCheck glyphs = none) :
    exec (.drawText x y text glyphs color) s =
      .next { drawTextBody x y text glyphs color (accept .drawText s) with
        exec := false, ctx := ⟨none, 0⟩,
        response := some
          ((drawTextBody x y text glyphs color (accept .drawText s)).warnlog.drop s.warnlog.length) } := by
  have hbody := drawTextBody_drawEffect x y text glyphs color (accept .drawText s)
  have live := hbody.pstate.trans_ne ready.1
  rw [exec, execDrawText, hcheck, request_ready _ _ _ ready, complete_ok _ _ live]

/-- A DRAWTEXT that answers a state ran its body from a state that is ready; completion leaves the body's state but for
EXEC, the response and the model's own record of the operation. -/
theorem exec_drawText_next {x y : Int} {text : List Byte} {glyphs : Option GlyphSource} {color : Byte} {s t : State}
    (h : exec (.drawText x y text glyphs color) s = .next t) :
    s.ready ∧ t = { drawTextBody x y text glyphs color (accept .drawText s) with
      exec := false, ctx := ⟨none, 0⟩, response := t.response } := by
  obtain ⟨hcheck, ready, -⟩ := request_ran h
  rw [exec_drawText_eq x y text color ready hcheck] at h
  cases h
  exact ⟨ready, rfl⟩

/-- What the text loop may change is what it does change of the framebuffer, its working registers and the warnings,
seen from the state before acceptance. -/
theorem DrawFrame.complete_eq {s u : State} {op : Operation} (h : DrawFrame (accept op s) u) (hexec : s.exec = false)
    (response : Option (List Warning)) :
    { u with exec := false, ctx := ⟨none, 0⟩, response := response } =
      { s with fb := u.fb,
               work := { s.work with curX := u.work.curX, charIdx := u.work.charIdx, gRow := u.work.gRow,
                                     gCol := u.work.gCol },
               warnlog := u.warnlog, wflags := u.wflags, response := response, ctx := ⟨none, 0⟩ } := by
  unfold DrawFrame at h
  conv_lhs => rw [h]
  simp [accept, hexec]

/-! ### Ink -/

/-- The cell of a code has ink at `(lx, ly)` when it is drawn at `(x, y)` (43_rasterizer.md R145, R157). -/
def cellInk (gs : GlyphSource) (code : Byte) (x y lx ly : Int) : Prop :=
  ∃ row ∈ List.range gs.cellHeight.toNat, ∃ col ∈ List.range gs.cellWidth.toNat,
    gs.bit code row col = true ∧ lx = x + col ∧ ly = y + row

/-- How far a later character's cursor has advanced: past the first character, if it is drawn, and past those between. -/
theorem countP_take_succ_mul (p : Byte → Bool) (code : Byte) (text : List Byte) (k w : Nat) :
    ((code :: text).take (k + 1)).countP p * w = [code].countP p * w + (text.take k).countP p * w := by
  rw [List.take_succ_cons, ← List.singleton_append, List.countP_append, Nat.add_mul]

theorem not_inkAt_nil (gs : GlyphSource) (x y lx ly : Int) : ¬ inkAt gs [] x y lx ly := by
  simp [inkAt]

/-- The ink of a text is that of its first character, if it is drawn, and that of the rest from the cursor after it. -/
theorem inkAt_cons (gs : GlyphSource) (code : Byte) (text : List Byte) (x y lx ly : Int) :
    inkAt gs (code :: text) x y lx ly ↔
      (gs.supports code = true ∧ cellInk gs code x y lx ly) ∨
        inkAt gs text (x + ([code].countP gs.supports * gs.cellWidth.toNat : Nat)) y lx ly := by
  constructor
  · rintro ⟨k, code', row, col, hk, hsup, hrow, hcol, hbit, hx, hy⟩
    cases k with
    | zero =>
      obtain rfl : code = code' := by simpa using hk
      exact .inl ⟨hsup, row, List.mem_range.2 hrow, col, List.mem_range.2 hcol, hbit, by simpa using hx, hy⟩
    | succ k =>
      rw [countP_take_succ_mul] at hx
      exact .inr ⟨k, code', row, col, hk, hsup, hrow, hcol, hbit, by omega, hy⟩
  · rintro (⟨hsup, row, hrow, col, hcol, hbit, hx, hy⟩ | ⟨k, code', row, col, hk, hsup, hrow, hcol, hbit, hx, hy⟩)
    · exact ⟨0, code, row, col, rfl, hsup, List.mem_range.1 hrow, List.mem_range.1 hcol, hbit, by simpa using hx, hy⟩
    · refine ⟨k + 1, code', row, col, hk, hsup, hrow, hcol, hbit, ?_, hy⟩
      rw [countP_take_succ_mul]
      omega

/-- One character's effect on a pixel of the RAM: written where the character is drawn and its cell has ink at it. -/
theorem pixel_drawChar (gs : GlyphSource) (y : Int) (c : Byte) (index : Nat) (code : Byte) {s : State}
    (hwf : s.cfg.wf = true) {rx ry : Nat} (hx : rx < s.cfg.ramWidth) (hy : ry < s.cfg.ramHeight) :
    (gs.supports code = true ∧ cellInk gs code s.work.curX y ry (((s.cfg.ramWidth : Int) - 1) - rx) →
      (drawChar gs y c index code s).pixel rx ry = (c != s.cfg.black)) ∧
    (¬ (gs.supports code = true ∧ cellInk gs code s.work.curX y ry (((s.cfg.ramWidth : Int) - 1) - rx)) →
      (drawChar gs y c index code s).pixel rx ry = s.pixel rx ry) := by
  by_cases hsup : gs.supports code = true
  · have hdraw : (drawChar gs y c index code s).pixel rx ry =
        (drawCell gs code y c (setCharIdx index s)).pixel rx ry := by rw [drawChar, if_pos hsup]; rfl
    rw [hdraw, pixel_drawCell gs code y c (setCharIdx index s) hwf hx hy]
    exact ⟨fun h => if_pos h.2, fun h => if_neg fun hink => h ⟨hsup, hink⟩⟩
  · have hskip : (drawChar gs y c index code s).pixel rx ry = s.pixel rx ry := by
      rw [drawChar, if_neg hsup]; rfl
    exact ⟨fun h => absurd h.1 hsup, fun _ => hskip⟩

/-- The text loop's effect on a pixel of the RAM: written where some drawn character has ink at it. A later character
may write the pixel again, with the same value. -/
theorem pixel_drawChars (gs : GlyphSource) (y : Int) (c : Byte) (text : List Byte) (index : Nat) {s : State}
    (hwf : s.cfg.wf = true) {rx ry : Nat} (hx : rx < s.cfg.ramWidth) (hy : ry < s.cfg.ramHeight) :
    (inkAt gs text s.work.curX y ry (((s.cfg.ramWidth : Int) - 1) - rx) →
      (drawChars gs y c index text s).pixel rx ry = (c != s.cfg.black)) ∧
    (¬ inkAt gs text s.work.curX y ry (((s.cfg.ramWidth : Int) - 1) - rx) →
      (drawChars gs y c index text s).pixel rx ry = s.pixel rx ry) := by
  induction text generalizing index s with
  | nil => exact ⟨fun h => absurd h (not_inkAt_nil gs _ _ _ _), fun _ => rfl⟩
  | cons code text ih =>
    have heff := drawChar_effect gs y c index code s
    have hcfg := heff.frame.cfg
    obtain ⟨hfirst, hfirst'⟩ := pixel_drawChar gs y c index code hwf hx hy
    obtain ⟨hrest, hrest'⟩ := ih (index + 1) (s := drawChar gs y c index code s) (by rwa [hcfg]) (by rwa [hcfg])
      (by rwa [hcfg])
    rw [hcfg, heff.curX] at hrest hrest'
    rw [inkAt_cons, drawChars]
    by_cases hlater : inkAt gs text (s.work.curX + ([code].countP gs.supports * gs.cellWidth.toNat : Nat)) y ry
        (((s.cfg.ramWidth : Int) - 1) - rx)
    · exact ⟨fun _ => hrest hlater, fun h => absurd (.inr hlater) h⟩
    · rw [hrest' hlater]
      exact ⟨fun h => hfirst (h.resolve_right hlater), fun h => hfirst' fun hink => h (.inl hink)⟩

/-! ### What the drawing loops see -/

/-- Two states with the same parameters, framebuffer contents and cursor. -/
structure SameCanvas (s t : State) : Prop where
  cfg : s.cfg = t.cfg
  fb : s.fb = t.fb
  epoch : s.epoch = t.epoch
  curX : s.work.curX = t.work.curX

theorem SameCanvas.refl (s : State) : SameCanvas s s := ⟨rfl, rfl, rfl, rfl⟩

theorem SameCanvas.trans {s t u : State} (h : SameCanvas s t) (h' : SameCanvas t u) : SameCanvas s u :=
  ⟨h.cfg.trans h'.cfg, h.fb.trans h'.fb, h.epoch.trans h'.epoch, h.curX.trans h'.curX⟩

theorem pixelWrite_sameCanvas {s t : State} (h : SameCanvas s t) (rx ry : Nat) (v : Bool) :
    SameCanvas (pixelWrite rx ry v s) (pixelWrite rx ry v t) := by
  refine ⟨h.cfg, ?_, h.epoch, h.curX⟩
  simp [pixelWrite, h.cfg, h.fb, readFb_congr h.fb h.epoch]

theorem plot_sameCanvas {s t : State} (h : SameCanvas s t) (lx ly : Int) (c : Byte) :
    SameCanvas (plot lx ly c s) (plot lx ly c t) := by
  have hcanvas : onCanvas s.cfg lx ly ↔ onCanvas t.cfg lx ly := by rw [h.cfg]
  rcases plot_cases lx ly c s with ⟨hon, hs⟩ | ⟨hoff, hs⟩ <;>
    rcases plot_cases lx ly c t with ⟨hon', ht⟩ | ⟨hoff', ht⟩
  · rw [hs, ht, h.cfg]
    exact pixelWrite_sameCanvas h _ _ _
  · exact absurd (hcanvas.1 hon) hoff'
  · exact absurd (hcanvas.2 hon') hoff
  · rwa [hs, ht]

/-- A loop of steps that each keep two states' canvases the same keeps them the same. -/
theorem SameCanvas.foldl {f : State → Nat → State} (hf : ∀ k {s t}, SameCanvas s t → SameCanvas (f s k) (f t k))
    (l : List Nat) {s t : State} (h : SameCanvas s t) : SameCanvas (l.foldl f s) (l.foldl f t) := by
  induction l generalizing s t with
  | nil => exact h
  | cons k l ih => exact ih (hf k h)

theorem drawPosition_sameCanvas (gs : GlyphSource) (code : Byte) (y : Int) (c : Byte) (row col : Nat) {s t : State}
    (h : SameCanvas s t) : SameCanvas (drawPosition gs code y c row s col) (drawPosition gs code y c row t col) := by
  have hcol : SameCanvas (setGCol col s) (setGCol col t) := ⟨h.cfg, h.fb, h.epoch, h.curX⟩
  simp only [drawPosition, hcol.curX]
  split
  · exact plot_sameCanvas hcol _ _ _
  · exact hcol

theorem drawRow_sameCanvas (gs : GlyphSource) (code : Byte) (y : Int) (c : Byte) (row : Nat) {s t : State}
    (h : SameCanvas s t) : SameCanvas (drawRow gs code y c s row) (drawRow gs code y c t row) := by
  have hrow : SameCanvas (setGRow row s) (setGRow row t) := ⟨h.cfg, h.fb, h.epoch, h.curX⟩
  exact hrow.foldl (drawPosition_sameCanvas gs code y c row) _

theorem drawCell_sameCanvas (gs : GlyphSource) (code : Byte) (y : Int) (c : Byte) {s t : State}
    (h : SameCanvas s t) : SameCanvas (drawCell gs code y c s) (drawCell gs code y c t) :=
  h.foldl (drawRow_sameCanvas gs code y c) _

/-- A skipped character leaves the canvas and the cursor (43_rasterizer.md R143). -/
theorem drawChar_sameCanvas_of_unsupported {gs : GlyphSource} {code : Byte} (h : gs.supports code = false) (y : Int)
    (c : Byte) (index : Nat) (s : State) : SameCanvas (drawChar gs y c index code s) s := by
  rw [drawChar, h]
  exact ⟨rfl, rfl, rfl, rfl⟩

/-- The index of a character shows only in CHAR_IDX and in the warning that it was skipped. -/
theorem drawChar_sameCanvas (gs : GlyphSource) (y : Int) (c : Byte) (index index' : Nat) (code : Byte) {s t : State}
    (h : SameCanvas s t) : SameCanvas (drawChar gs y c index code s) (drawChar gs y c index' code t) := by
  have hidx : SameCanvas (setCharIdx index s) (setCharIdx index' t) := ⟨h.cfg, h.fb, h.epoch, h.curX⟩
  unfold drawChar
  cases gs.supports code with
  | true =>
    obtain ⟨hcfg, hfb, hepoch, hcur⟩ := drawCell_sameCanvas gs code y c hidx
    exact ⟨hcfg, hfb, hepoch, congrArg (· + (gs.cellWidth.toNat : Int)) hcur⟩
  | false => exact ⟨h.cfg, h.fb, h.epoch, h.curX⟩

theorem drawChars_sameCanvas (gs : GlyphSource) (y : Int) (c : Byte) (text : List Byte) (index index' : Nat)
    {s t : State} (h : SameCanvas s t) :
    SameCanvas (drawChars gs y c index text s) (drawChars gs y c index' text t) := by
  induction text generalizing index index' s t with
  | nil => exact h
  | cons code text ih => exact ih _ _ (drawChar_sameCanvas gs y c index index' code h)

/-- A text with an unsupported character and the text without it leave the same canvas and cursor. -/
theorem drawChars_sameCanvas_skip {gs : GlyphSource} {code : Byte} (hskip : gs.supports code = false) (y : Int)
    (c : Byte) (before after : List Byte) (index index' : Nat) {s t : State} (h : SameCanvas s t) :
    SameCanvas (drawChars gs y c index (before ++ code :: after) s)
      (drawChars gs y c index' (before ++ after) t) := by
  induction before generalizing index index' s t with
  | nil =>
    have hskipped := drawChar_sameCanvas_of_unsupported hskip y c index s
    exact drawChars_sameCanvas gs y c after (index + 1) index' (hskipped.trans h)
  | cons first before ih => exact ih _ _ (drawChar_sameCanvas gs y c index index' first h)

end Sys2Proof.Machine
end

section
/-! CERTIFICATE. The statements of 43_rasterizer.md: O25 to O28, O30 to O32. -/

namespace Sys2Proof.Machine

/-- Settles O28: a long enough table passes the check, and the text loop keeps its frame and the framebuffer's bounds;
the refusals are those of any request. -/
theorem drawTextCompletes : Obligations.DrawTextCompletes := by
  intro s x y text gs color hcheck
  refine ⟨fun ready => ?_, request_halted _ _ _ s, request_busy _ _ _ s⟩
  have hcursor : DrawFrame (accept .drawText s) (setCurX x (accept .drawText s)) := rfl
  have htext := drawChars_effect gs y color text 0 (setCurX x (accept .drawText s))
  exact ⟨_, exec_drawText_eq x y text color ready hcheck, htext.outside,
    (hcursor.trans htext.frame).complete_eq ready.2.1 _⟩

/-- Settles O30: the text loop starts at `x` and moves the cursor one cell for each supported character. -/
theorem cursorAdvance : Obligations.CursorAdvance := by
  intro s t x y text gs color h
  obtain ⟨-, ht⟩ := exec_drawText_next h
  rw [ht]
  exact (drawChars_effect gs y color text 0 (setCurX x (accept .drawText s))).curX

/-- Settles O31: acceptance and completion leave the pixels, and the text loop writes those with ink. -/
theorem drawTextInk : Obligations.DrawTextInk := by
  intro s t x y text gs color h rx ry hx hy
  obtain ⟨ready, ht⟩ := exec_drawText_next h
  rw [ht]
  exact pixel_drawChars gs y color text 0 (s := setCurX x (accept .drawText s)) ready.2.2 hx hy

/-- Settles O32: at the unsupported character the two runs have the same canvas and cursor, and the rest of the text
keeps them the same. -/
theorem skippedCharacterLeavesCanvas : Obligations.SkippedCharacterLeavesCanvas := by
  intro s t u x y before after code gs color hskip ht hu
  obtain ⟨-, ht⟩ := exec_drawText_next ht
  obtain ⟨-, hu⟩ := exec_drawText_next hu
  have hsame := drawChars_sameCanvas_skip hskip y color before after 0 0
    (SameCanvas.refl (setCurX x (accept .drawText s)))
  rw [ht, hu]
  exact ⟨hsame.fb, hsame.curX⟩

/-- Settles O25: each coordinate of the transform is a reflection or the identity. -/
theorem rotationBijection : Obligations.RotationBijection := by
  intro cfg
  unfold onCanvas ramXOf ramYOf Config.logicalWidth Config.logicalHeight
  refine ⟨fun lx ly hon => ?_, fun rx ry hx hx' hy hy' => ?_, fun lx ly lx' ly' hx hy => ?_⟩
  · omega
  · exact ⟨ry, ((cfg.ramWidth : Int) - 1) - rx, by omega, by omega, rfl⟩
  · omega

/-- Settles O26: the two checks of PLOT together are the canvas check, and each case of PLOT excludes the other. -/
theorem plotWritesIffOnCanvas : Obligations.PlotWritesIffOnCanvas := by
  intro s lx ly color
  rcases plot_cases lx ly color s with ⟨hon, hplot⟩ | ⟨hoff, hplot⟩
  · exact ⟨fun _ => hplot, fun h => absurd hon h⟩
  · exact ⟨fun h => absurd h hoff, fun _ => hplot⟩

/-- Settles O27: the body is the one warning, which is all that the log has grown by. -/
theorem drawTextWithoutGlyphSource : Obligations.DrawTextWithoutGlyphSource := by
  intro s x y text color ready
  have hexec : s.exec = false := ready.2.1
  rw [exec_drawText_eq x y text color ready rfl]
  simp [drawTextBody, warn, accept, WFlags.set, ← hexec]

end Sys2Proof.Machine
end

section
/-! SUPPORT. The refusals of 60_exceptions.md R170 that come before an instruction's own work: Halted (R171, R161), a
request during an operation (R172), and the protocol state that a panel operation wants (R173). -/

namespace Sys2Proof.Machine

/-! ### Halted -/

theorem internal_halted (acts : List Act) {s : State} (h : s.pstate = .halted) :
    internal acts s = .refused .halted := if_pos h

theorem exec_halted (i : Instr) {s : State} (h : s.pstate = .halted) : exec i s = .refused .halted := by
  rcases exec_forms i s with ⟨op, check, body, he⟩ | ⟨acts, he⟩ | ⟨bytes, rfl⟩
  · rw [he, request_halted op check body s h]
  · rw [he, internal_halted acts h]
  · exact if_pos h

theorem decodeRefusal_halted {s : State} (h : s.pstate = .halted) (e : DecodeError) :
    decodeRefusal s e = .halted := by
  have hadm : s.admission = some .halted := if_pos h
  cases e with
  | reservedBits | reservedSelector | glyphSourceMissing | textTooShort => simp [decodeRefusal, hadm]
  | emptyFrame | mixedFrame | frameTooLong => exact if_pos h

/-- Words, of a host or the sequencer's own, are refused in Halted whether they are an instruction or not. -/
theorem step_words_halted {s t : State} {w : Words} (hf : fetch s = .words w t) (hs : s.pstate = .halted)
    (ht : t.pstate = .halted) : step s = .refused .halted := by
  cases hd : decode s.cfg w with
  | ok i => rw [step_words hf hd, exec_halted i ht]
  | error e => rw [step_rejects hf hd, decodeRefusal_halted hs e]

/-! ### During an operation -/

theorem exec_public {i : Instr} (hi : isPublic i = true) (s : State) :
    ∃ op check body, exec i s = request op check body s := by
  cases i with
  | initPanel | clear | display | drawText | fillPattern | fillCheckerboard => exact ⟨_, _, _, rfl⟩
  | _ => cases hi

theorem decodeDrawText_eq_error {cfg : Config} {d : Descriptor} {text : List Byte} {glyphs : Option GlyphSource}
    {e : DecodeError} (h : decodeDrawText cfg d text glyphs = .error e) :
    e = .glyphSourceMissing ∨ e = .textTooShort := by
  simp only [decodeDrawText] at h
  split at h
  · cases h
  · cases glyphs with
    | none => cases h; exact .inl rfl
    | some gs =>
      simp only at h
      split at h
      · cases h; exact .inr rfl
      · cases h

/-- A request that the decoder rejects meets the checks of R170 in their order, admission first. -/
theorem decodeRefusal_request {cfg : Config} {d : Descriptor} {text : List Byte} {glyphs : Option GlyphSource}
    {e : DecodeError} (h : decode cfg (.request d text glyphs) = .error e) (s : State) :
    ∃ r, decodeRefusal s e = s.admission.getD r := by
  simp only [decode, decodeRequest] at h
  split at h
  · cases h; exact ⟨_, rfl⟩
  · split at h
    case h_4 => rcases decodeDrawText_eq_error h with rfl | rfl <;> exact ⟨_, rfl⟩
    case h_7 => cases h; exact ⟨_, rfl⟩
    all_goals cases h

/-! ### The operations' own checks -/

theorem request_check {s : State} (ready : s.ready) (op : Operation) (r : Refusal) (body : State → State) :
    request op (some r) body s = .refused r := by
  obtain ⟨live, hexec, -⟩ := ready
  simp [request, State.admission, live, hexec]

theorem stateCheck_of_ne {p : PState} {s : State} (h : s.pstate ≠ p) : stateCheck p s = some .wrongState := if_neg h

theorem exec_initPanel_eq {s : State} (ready : s.ready) (h : s.pstate = .uninitialized) :
    exec .initPanel s = .next (complete s.warnlog.length (runActs (initActs s.cfg) (accept .initPanel s))) := by
  rw [exec, execInitPanel, (stateCheck_eq_none_iff ..).2 h, request_ready _ _ _ ready]

theorem exec_display_eq {s : State} (ready : s.ready) (h : s.pstate = .idle) :
    exec .display s = .next (complete s.warnlog.length (runActs (displayActs s.cfg) (accept .display s))) := by
  rw [exec, execDisplay, (stateCheck_eq_none_iff ..).2 h, request_ready _ _ _ ready]

end Sys2Proof.Machine
end

section
/-! SUPPORT. A Transport call for which the link layer reports a failure, by itself and as a later call of a sequence
whose calls before it were let through (60_exceptions.md R160, R161, 40_transport.md R91). -/

namespace Sys2Proof.Machine

/-! ### One call -/

/-- The state in which a failed call with the select line at `level` halts. -/
def State.faulted (s : State) (call : TransportCall) (level : Level) : State :=
  { s with pstate := .halted, dc := level, cs := s.cfg.csActiveLevel,
           traceRev := .cs s.cfg.csActiveLevel :: .dc level :: s.traceRev,
           busFault := some ⟨s.ctx.operation, s.ctx.calls, call⟩, env := s.env.takeLinks 1 }

@[simp] theorem faulted_trace (s : State) (call : TransportCall) (level : Level) :
    (s.faulted call level).trace = s.trace ++ [.dc level, .cs s.cfg.csActiveLevel] := by
  simp [State.trace, State.faulted]

theorem transport_faulted (call : TransportCall) (level : Level) (bytes : List Byte) {s : State}
    (h : s.linkAnswer 0 = 1#1) : transport call level bytes s = s.faulted call level :=
  transport_fault call level bytes s h

theorem sendDataBlock_faulted (bytes : List Byte) {s : State} (h : s.linkAnswer 0 = 1#1) :
    sendDataBlock bytes s = setStreamIdx 0 (s.faulted .sendDataBlock 1#1) :=
  sendDataBlock_fault bytes s h

section OneCall

variable {s : State} (live : s.pstate ≠ .halted) (hwf : s.cfg.wf = true)

include live hwf

/-- One statement as an internal step. -/
theorem internal_singleton (a : Act) : internal [a] s = .next (runAct a s) := by
  rw [internal_ok _ s live hwf, runActs_cons _ _ _ live, runActs_nil]

variable (hfault : s.linkAnswer 0 = 1#1)

include hfault

theorem exec_sendCommand_faulted (c : Byte) : exec (.sendCommand c) s = .next (s.faulted .sendCommand 0#1) :=
  (internal_singleton live hwf (.sendCommand c)).trans (congrArg _ (transport_faulted _ _ _ hfault))

theorem exec_sendData_faulted (d : Byte) : exec (.sendData d) s = .next (s.faulted .sendData 1#1) :=
  (internal_singleton live hwf (.sendData d)).trans (congrArg _ (transport_faulted _ _ _ hfault))

theorem exec_sendDataBlock_faulted {bytes : List Byte} (h1 : 1 ≤ bytes.length) (hlen : bytes.length ≤ s.cfg.fbSize) :
    exec (.sendDataBlock bytes) s = .next (setStreamIdx 0 (s.faulted .sendDataBlock 1#1)) := by
  rw [exec_sendDataBlock_internal live h1 hlen, internal_singleton live hwf, runAct, sendDataBlock_faulted _ hfault]

end OneCall

/-! ### A later call of a sequence -/

/-- From `s` to `t` exactly `j` calls were let through, and the next one failed. -/
structure FaultEffect (j : Nat) (s t : State) : Prop where
  pstate : t.pstate = .halted
  cs : t.cs = s.cfg.csActiveLevel
  trace : ∃ es, t.trace = s.trace ++ es ++ [.dc t.dc, .cs s.cfg.csActiveLevel] ∧ es.countP Event.isXfer = j
  site : ∃ call, t.busFault = some ⟨s.ctx.operation, s.ctx.calls + j, call⟩

theorem transport_faultEffect (call : TransportCall) (level : Level) (bytes : List Byte) {s : State}
    (h : s.linkAnswer 0 = 1#1) : FaultEffect 0 s (transport call level bytes s) := by
  rw [transport_faulted _ _ _ h]
  exact ⟨rfl, rfl, ⟨[], by rw [faulted_trace, List.append_nil]; rfl, rfl⟩, call, rfl⟩

theorem sendDataBlock_faultEffect (bytes : List Byte) {s : State} (h : s.linkAnswer 0 = 1#1) :
    FaultEffect 0 s (sendDataBlock bytes s) := by
  rw [sendDataBlock_faulted _ h]
  exact ⟨rfl, rfl, ⟨[], by rw [setStreamIdx_trace, faulted_trace, List.append_nil]; rfl, rfl⟩, .sendDataBlock, rfl⟩

/-- A statement that makes a call fails with it. -/
theorem runAct_faultEffect {a : Act} {s : State} (ha : 0 < a.calls) (h : s.linkAnswer 0 = 1#1) :
    FaultEffect 0 s (runAct a s) := by
  cases a with
  | setState p => cases ha
  | hwReset => cases ha
  | waitBusy site => cases ha
  | sendCommand c => exact transport_faultEffect _ _ _ h
  | sendData d => exact transport_faultEffect _ _ _ h
  | sendDataBlock bytes => exact sendDataBlock_faultEffect bytes h
  | sendFramebuffer => exact sendDataBlock_faultEffect s.fbBytes h

theorem Act.calls_le_one (a : Act) : a.calls ≤ 1 := by
  cases a <;> simp [Act.calls]

theorem callCount_cons (a : Act) (as : List Act) : callCount (a :: as) = a.calls + callCount as := by
  simp [callCount]

/-- After a sequence whose calls were let through the answers still to come are those after its own. -/
theorem ClearEffect.linkAnswer {as : List Act} {s t : State} (h : ClearEffect as s t) (k : Nat) :
    t.linkAnswer k = s.linkAnswer (callCount as + k) := by
  have hanswers : t.env.linkAnswers = s.env.linkAnswers.drop (callCount as) := by rw [h.frame]; rfl
  have htaken : t.env.linkTaken = s.env.linkTaken + callCount as := by rw [h.frame]; rfl
  simp [State.linkAnswer, hanswers, htaken, Nat.add_assoc]

/-- The calls that were let through count before the one that failed. -/
theorem ClearEffect.faultEffect {as : List Act} {s t u : State} {j : Nat} (h : ClearEffect as s t)
    (h' : FaultEffect j t u) : FaultEffect (callCount as + j) s u := by
  have hcfg : t.cfg = s.cfg := by rw [h.frame]
  have hctx : t.ctx = { s.ctx with calls := s.ctx.calls + callCount as } := by rw [h.frame]
  obtain ⟨es, -, htrace, hxfers, -⟩ := h.parts
  obtain ⟨hp, hcs, ⟨es', htrace', hxfers'⟩, call, hsite⟩ := h'
  refine ⟨hp, by rw [hcs, hcfg], ⟨es ++ es', ?_, ?_⟩, call, ?_⟩
  · rw [htrace', htrace, hcfg, List.append_assoc s.trace]
  · rw [List.countP_append, hxfers, hxfers']
  · rw [hsite, hctx, Nat.add_assoc]

/-- A sequence stops at the call that fails, whatever the panel answers before. -/
theorem runActs_faultEffect {as : List Act} {s : State} {j : Nat} (live : s.pstate ≠ .halted)
    (ha : Act.setState .halted ∉ as) (hj : j < callCount as) (hclear : s.linkClear j) (hfault : s.linkAnswer j = 1#1) :
    FaultEffect j s (runActs as s) := by
  induction as generalizing s j with
  | nil => cases hj
  | cons a as ih =>
    obtain ⟨hne, htail⟩ := not_or.1 (mt List.mem_cons.2 ha)
    rw [callCount_cons] at hj
    rw [runActs_cons _ _ _ live]
    by_cases hnow : j < a.calls
    · obtain rfl : j = 0 := by have := a.calls_le_one; omega
      have hstop := runAct_faultEffect hnow hfault
      rwa [runActs_halted _ _ hstop.pstate]
    · obtain ⟨k, rfl⟩ := Nat.exists_eq_add_of_le (Nat.not_lt.1 hnow)
      have hcalls : s.linkClear a.calls := linkClear_mono hclear (Nat.le_add_right ..)
      have hrun := runAct_clear a s live hcalls
      have hcount : callCount [a] = a.calls := callCount_cons a []
      have hlink : ∀ m, (runAct a s).linkAnswer m = s.linkAnswer (a.calls + m) := hcount ▸ hrun.linkAnswer
      have hrest := ih (runAct_live live hcalls (Ne.symm hne)) htail (Nat.add_lt_add_iff_left.1 hj)
        (fun m hm => (hlink m).trans (hclear _ (Nat.add_lt_add_left hm _))) ((hlink k).trans hfault)
      exact hcount ▸ hrun.faultEffect hrest

end Sys2Proof.Machine
end

section
/-! CERTIFICATE. The statements of 60_exceptions.md: O12 to O14, O16, O29, O36, O47. -/

namespace Sys2Proof.Machine

/-- Settles O12: taking the words leaves PSTATE, and in Halted they are refused whatever they are. -/
theorem haltedRefusesEverything : Obligations.HaltedRefusesEverything := by
  intro s hs
  refine ⟨fun i => exec_halted i hs, fun d text glyphs rest hp => ?_, fun symbols rest hp hexec hframes => ?_⟩
  · exact step_words_halted (fetch_request hp) hs hs
  · exact step_words_halted (fetch_frame hp ((ownFrames_busy hexec).trans hframes)) hs hs

/-- Settles O13: of the four things that a step can take, Halted refuses words, and nothing changes nothing. -/
theorem haltedLeftOnlyByCoreReset : Obligations.HaltedLeftOnlyByCoreReset := by
  intro s t hs h
  rcases fetch_cases s with ⟨-, -, hf⟩ | ⟨rest, hp, hf⟩ | ⟨d, text, glyphs, rest, -, hf⟩ |
    ⟨symbols, rest, -, -, -, hf⟩
  · cases (step_nothing hf).symm.trans h
    exact .inl rfl
  · cases (step_reset hf).symm.trans h
    exact .inr ⟨rest, hp, rfl⟩
  · cases (step_words_halted hf hs hs).symm.trans h
  · cases (step_words_halted hf hs hs).symm.trans h

/-- Settles O14: the request is a public operation or no instruction, and both are checked for admission first. -/
theorem requestDuringOperationRefused : Obligations.RequestDuringOperationRefused := by
  intro s d text glyphs rest live hexec hp
  cases hd : decode s.cfg (.request d text glyphs) with
  | ok i =>
    obtain ⟨op, check, body, he⟩ := exec_public (isPublic_of_decode_request hd) { s with pending := rest }
    rw [step_words (fetch_request hp) hd, he]
    exact request_busy op check body _ live hexec
  | error e =>
    have hadm : s.admission = some .operationInProgress := by simp [State.admission, live, hexec]
    obtain ⟨r, hr⟩ := decodeRefusal_request hd s
    rw [step_rejects (fetch_request hp) hd, hr, hadm, Option.getD_some]

/-- Settles O16: the two panel operations check PSTATE, and the drawing operations only the glyph table. -/
theorem acceptedByState : Obligations.AcceptedByState := by
  intro s ready
  refine ⟨fun hne => ?_, fun hp => ⟨_, exec_initPanel_eq ready hp⟩, fun hne => ?_,
    fun hp => ⟨_, exec_display_eq ready hp⟩, fun _ => ⟨fun fill => ⟨_, request_ready _ _ s ready⟩,
      ⟨_, request_ready _ _ s ready⟩, ⟨_, request_ready _ _ s ready⟩, fun x y text glyphs color hcheck =>
        ⟨_, exec_drawText_eq x y text color ready hcheck⟩⟩⟩
  · rw [exec, execInitPanel, stateCheck_of_ne hne, request_check ready]
  · rw [exec, execDisplay, stateCheck_of_ne hne, request_check ready]

/-- Settles O29: acceptance leaves the log, the text loop appends its warnings, and completion answers what it
appended. -/
theorem drawTextWarnings : Obligations.DrawTextWarnings := by
  intro s t x y text gs color h
  obtain ⟨hcheck, ready, -⟩ := request_ran h
  have htext := drawChars_effect gs y color text 0 (setCurX x (accept .drawText s))
  have hlog : (drawTextBody x y text (some gs) color (accept .drawText s)).warnlog =
      s.warnlog ++ skipWarnings gs 0 text := htext.warnlog
  rw [exec_drawText_eq x y text color ready hcheck, hlog, List.drop_left] at h
  cases h
  exact ⟨rfl, hlog, htext.wflags⟩

/-- Settles O36: one call that fails, with the select line at the call's level. -/
theorem transportCallFaults : Obligations.TransportCallFaults := by
  intro s b bytes live hwf hfault h1 hlen
  exact ⟨⟨_, exec_sendCommand_faulted live hwf hfault b, ⟨faulted_trace .., rfl⟩, rfl⟩,
    ⟨_, exec_sendData_faulted live hwf hfault b, ⟨faulted_trace .., rfl⟩, rfl⟩,
    ⟨_, exec_sendDataBlock_faulted live hwf hfault h1 hlen, (setStreamIdx_trace ..).trans (faulted_trace ..), rfl⟩⟩

/-- Settles O47: both operations run a sequence that stops at the failed call, and is not completed; what it keeps it
keeps whatever the environment answers. -/
theorem busFaultAbortsOperation : Obligations.BusFaultAbortsOperation := by
  intro s j i op hexec hwf hcase hclear hfault
  obtain ⟨as, hop, hx, hj⟩ : ∃ as, PanelOperation s i as ∧
      exec i s = .next (complete s.warnlog.length (runActs as (accept op s))) ∧ j < callCount as := by
    rcases hcase with ⟨rfl, rfl, hp, hj⟩ | ⟨rfl, rfl, hp, hj⟩
    · have hop : PanelOperation s .initPanel (initActs s.cfg) := .initPanel hp
      exact ⟨_, hop, exec_initPanel_eq ⟨hop.live, hexec, hwf⟩ hp, by rwa [callCount_initActs]⟩
    · have hop : PanelOperation s .display (displayActs s.cfg) := .display hp
      exact ⟨_, hop, exec_display_eq ⟨hop.live, hexec, hwf⟩ hp, by rwa [callCount_displayActs]⟩
  have hrun := runActs_effect as (accept op s) hop.halted_not_mem
  have hstop : FaultEffect j (accept op s) (runActs as (accept op s)) :=
    runActs_faultEffect hop.live hop.halted_not_mem hj hclear hfault
  rw [complete_halted _ _ hstop.pstate] at hx
  obtain ⟨hp, hcs, ⟨es, htrace, hxfers⟩, call, hsite⟩ := hstop
  obtain ⟨ws, hlog, -⟩ := hrun.warns
  rw [accept_ctx, Nat.zero_add] at hsite
  exact ⟨_, es, _, call, hx, hp, hrun.exec, hrun.response, hcs, rfl, htrace, hxfers, ⟨ws, hlog⟩, hrun.fb,
    hrun.epoch, hsite⟩

end Sys2Proof.Machine
end

section
/-! SUPPORT. How an accepted operation ends (70_reset_and_hazards.md R196, R197), and when the sequencer has no frame of
its own to send (30_encoding.md R84). -/

namespace Sys2Proof.Machine

theorem ownFrames_eq_nil_iff (s : State) : s.ownFrames = [] ↔ s.exec = false ∨ s.frames = [] := by
  cases h : s.exec with
  | false => simp [ownFrames_idle h]
  | true => simp [ownFrames_busy h]

/-- The two ends of R197: a response is given, or PSTATE is Halted. -/
def State.ended (s : State) : Prop :=
  (s.exec = false ∧ s.pstate ≠ .halted ∧ s.response.isSome = true) ∨
    (s.exec = true ∧ s.pstate = .halted ∧ s.response = none)

/-- Completion responds; after a bus fault it leaves EXEC at 1 and gives none (60_exceptions.md R161). -/
theorem complete_ended (logged : Nat) {u : State} (hexec : u.exec = true) (hnone : u.response = none) :
    (complete logged u).ended := by
  by_cases hu : u.pstate = .halted
  · rw [complete_halted _ _ hu]
    exact .inr ⟨hexec, hu, hnone⟩
  · rw [complete_ok _ _ hu]
    exact .inl ⟨rfl, hu, rfl⟩

/-- A public operation that answers a state has ended in it: its body leaves EXEC at 1 and gives no response, and
completion comes after it. -/
theorem ExecEffect.ended {i : Instr} {s t : State} (h : ExecEffect i s t) (hi : isPublic i = true) : t.ended := by
  cases h with
  | drawing op u _ _ body ht => exact ht ▸ complete_ended _ body.exec body.response
  | panel op as ha _ ht =>
    have hrun := runActs_effect as (accept op s) ha.halted_not_mem
    exact ht ▸ complete_ended _ hrun.exec hrun.response
  | sequence _ hn => exact absurd (hi.symm.trans hn) (by decide)

end Sys2Proof.Machine
end

section
/-! CERTIFICATE. The statements of 70_reset_and_hazards.md: O9, O11, O53. -/

namespace Sys2Proof.Machine

/-- Settles O53: under its acceptance conditions an operation is not refused, and one that answers a state has ended in
it. -/
theorem everyAcceptedOperationTerminates : Obligations.EveryAcceptedOperationTerminates := by
  intro s i ready hcase
  obtain ⟨hi, t, hx⟩ : isPublic i = true ∧ ∃ t, exec i s = .next t := by
    rcases hcase with ⟨rfl, hp⟩ | ⟨rfl, hp⟩ | ⟨fill, rfl⟩ | rfl | rfl | ⟨x, y, text, glyphs, color, rfl, hcheck⟩
    · exact ⟨rfl, _, exec_initPanel_eq ready hp⟩
    · exact ⟨rfl, _, exec_display_eq ready hp⟩
    · exact ⟨rfl, _, request_ready _ _ s ready⟩
    · exact ⟨rfl, _, request_ready _ _ s ready⟩
    · exact ⟨rfl, _, request_ready _ _ s ready⟩
    · exact ⟨rfl, _, exec_drawText_eq x y text color ready hcheck⟩
  exact ⟨t, hx, (exec_effect hx).ended hi⟩

/-- Settles O9: with no input and no frame of its own the step takes nothing. -/
theorem stepWaitsForInput : Obligations.StepWaitsForInput := by
  intro s hp hidle
  exact step_nothing (fetch_nothing hp ((ownFrames_eq_nil_iff s).2 hidle))

/-- Settles O11: whatever the state, the input is taken first, and the reset state's fields are read off. -/
theorem coreResetFromEveryState : Obligations.CoreResetFromEveryState := by
  intro s rest hp
  exact ⟨_, step_reset (fetch_reset hp), rfl, rfl, rfl, rfl, rfl, rfl, rfl, rfl, fun _ => rfl, rfl, rfl, rfl, rfl, rfl,
    rfl⟩

end Sys2Proof.Machine
end

section
/-! CERTIFICATE. The words that two instructions share (30_encoding.md R60, notes/assumptions/13.md): O3. -/

namespace Sys2Proof.Machine

/-- A SENDCOMMAND of a panel command's byte has that panel command's words. -/
theorem encode_sendCommand_code (cfg : Config) (k : PanelCommand) :
    encode cfg (.sendCommand (cfg.code k)) = encode cfg k.instr :=
  (PanelCommand.encode_instr cfg k).symm

/-- A block of one byte has the words of a SENDDATA of that byte. -/
theorem encode_sendDataBlock_singleton (cfg : Config) (d : Byte) :
    encode cfg (.sendDataBlock [d]) = encode cfg (.sendData d) := rfl

/-- Distinct command bytes make every panel command's instruction well formed. -/
theorem wf_instr_of_codesDistinct {cfg : Config} (h : cfg.codesDistinct) (k : PanelCommand) :
    k.instr.wf cfg = true := by
  rw [PanelCommand.wf_instr, PanelCommand.wf, Config.commandOf_code h, beq_self_eq_true]

/-- Settles O3: the words are those of the well-formed spelling, which the round trip reads back. -/
theorem sharedWordsDecode : Obligations.SharedWordsDecode := by
  refine ⟨fun cfg k h => ?_, fun cfg d => ?_⟩
  · rw [encode_sendCommand_code]
    exact decodeEncodeRoundTrip cfg k.instr (wf_instr_of_codesDistinct h k)
  · rw [encode_sendDataBlock_singleton]
    exact decodeEncodeRoundTrip cfg (.sendData d) rfl

end Sys2Proof.Machine
end
